-- ==== Sys2Proof/Word.lean ====
section
/-! DEFINITION. The block's bit-level words. The spec keeps counters and samples as naturals in
range (93_implementation_defined.md row 14, rule R19); only codes and selectors are bit vectors. -/

namespace Sys2Proof

/-- A two-bit code: a waveform kind or an FSM state (R90, R91, R92). -/
abbrev Code := BitVec 2

/-- An operation selector, `unit[5:4] kind[3:2] state[1:0]` (R95). -/
abbrev Selector := BitVec 6

/-- The selector with the three given fields (R95). -/
def selectorOf (unit kind state : Code) : Selector := (unit ++ kind) ++ state

end Sys2Proof
end

