-- ==== Sys2Proof/Config.lean ====
section
/-! DEFINITION. What an implementation fixes before the block is built: the configuration tuple
(R16), the open parameters TRI_RANGE_POLICY, ROUND_MODE and PROFILES (93 rows 1, 7, 8), the
configuration errors (R187), and the one free value, the input `tx_ready`. -/

namespace Sys2Proof

/-- FREE VALUE (log 3). The bit the transport drives on `tx_ready` in tick `t`, where the
environment's stream does not give it. The block assumes nothing about it (R59, R196). -/
opaque Config.txReady : Nat → Bool

/-- The waveform kind, with the four rows of R92: two kinds of the block and two reserved codes. -/
inductive WaveKind where
  /-- SQUARE, code 0b00. -/
  | square
  /-- TRIANGLE, code 0b01. -/
  | triangle
  /-- SINE, code 0b10: reserved, out of scope (R8). -/
  | sine
  /-- Code 0b11: reserved. -/
  | reserved
deriving DecidableEq, Repr

/-- TRI_RANGE_POLICY (R112, D8): what happens to a triangle value above 2^W - 1. -/
inductive TriRangePolicy where
  /-- The default: keep the low W bits. -/
  | wrap
  /-- OSC.COMPUTE.TRI faults. -/
  | fault
deriving DecidableEq, Repr

/-- One oscillator of a configuration: its kind and its period (R15). -/
structure Voice where
  kind : WaveKind
  period : Nat
deriving DecidableEq, Repr

/-- The configuration tuple Cfg of R16, with the model parameter TRI_RANGE_POLICY beside it. -/
structure Cfg where
  /-- Sample width (R11). -/
  W : Nat
  /-- Output width (R12). -/
  P : Nat
  /-- Divisor: system-clock ticks per sample period (R14). -/
  D : Nat
  /-- The oscillators, in index order 1..N (R15). -/
  voices : List Voice
  /-- R112. -/
  triPolicy : TriRangePolicy := .wrap
deriving DecidableEq, Repr

/-- N, the number of oscillators (R13). -/
def Cfg.N (c : Cfg) : Nat := c.voices.length

/-- An oscillator as a configuration asks for it, before any check. `period` is absent where it
cannot be computed (R182). -/
structure RawVoice where
  kind : WaveKind
  period : Option Int
deriving DecidableEq, Repr

/-- A configuration before any check: R181 to R186 test integers that may be zero or negative. -/
structure RawCfg where
  W : Int
  P : Int
  D : Int
  voices : List RawVoice
  triPolicy : TriRangePolicy := .wrap
deriving DecidableEq, Repr

/-- The codes of R187, in its order. -/
inductive ErrorCode where
  /-- Code 1 (R184). -/
  | unknownProfile
  /-- Code 2 (R182). -/
  | badPeriod
  /-- Code 3 (R181). -/
  | badDivisor
  /-- Code 4 (R182). -/
  | triPeriod
  /-- Code 5 (R185). -/
  | badCount
  /-- Code 6 (R186). -/
  | badWidth
  /-- Code 7 (R183). -/
  | badKind
deriving DecidableEq, Repr

/-- The parameter a configuration error names (R180 to R187). Oscillators count from 1. For the
codes 1, 5 and 6 the spec names none, so `profile`, `count` and `width` are a DESIGN CHOICE
(log 15). -/
inductive Parameter where
  | profile
  /-- Code 3 (R181). -/
  | divisor
  /-- The frequency of oscillator `i`. -/
  | frequency (i : Nat)
  /-- The kind of oscillator `i`. -/
  | kind (i : Nat)
  | count
  | width
deriving DecidableEq, Repr

/-- `raise ConfigError(code, parameter)` (R22). -/
structure ConfigError where
  code : ErrorCode
  parameter : Parameter
deriving DecidableEq, Repr

/-- A rate or a frequency, as the fraction `num / den`. -/
structure Rate where
  num : Int
  den : Nat := 1
deriving DecidableEq, Repr

/-- A rate above zero. -/
def Rate.positive (r : Rate) : Bool := decide (0 < r.num) && decide (0 < r.den)

/-- PROFILES (R184): target profile names, each with its system clock rate. OPEN: the model's user
supplies it. -/
abbrev Profiles := List (String × Rate)

/-- ROUND_MODE (R102, D11): whether the ratio `k + 1/2` rounds up to `k + 1`. OPEN: the model's
user supplies it. -/
abbrev RoundMode := Int → Bool

/-- An oscillator asked for by its frequency (R102). -/
structure VoiceRequest where
  kind : WaveKind
  frequency : Rate
deriving DecidableEq, Repr

/-- What the configuration software is given (R213 steps 1 and 2). The transport bit rate is not
here: the block does not use it (R16). -/
structure Request where
  profile : Option String
  sampleRate : Rate
  W : Int
  P : Int
  voices : List VoiceRequest
  triPolicy : TriRangePolicy := .wrap
deriving DecidableEq, Repr

end Sys2Proof
end

