-- ==== Sys2Proof/Syntax.lean ====
section
/-! DEFINITION. The operations of the block: one constructor for each row of the operation map
(R98). Operations take no operand fields and no immediates (R100). -/

namespace Sys2Proof

/-- An operation: what one agent does in one FSM state during one tick (R3, R97, R98). -/
inductive Instr where
  /-- OSC.COMPUTE.SQ (R117). -/
  | oscComputeSq
  /-- OSC.COMPUTE.TRI (R118). -/
  | oscComputeTri
  /-- OSC.WAITING (R120). -/
  | oscWaiting
  /-- OSC.READY (R121). -/
  | oscReady
  /-- MIX.COMPUTE (R150). -/
  | mixCompute
  /-- MIX.SENDACK (R152). -/
  | mixSendack
  /-- MIX.IDLE (R155). -/
  | mixIdle
  /-- DIV.TICK (R146). -/
  | divTick
deriving DecidableEq, Repr

end Sys2Proof
end

