-- ==== Sys2Proof/Decode.lean ====
section
/-! DEFINITION. The operation map of R98 as rows of mask and pattern, the decoder from a selector
to an operation (total; every reserved selector is rejected by name, R99), and the encoder. -/

namespace Sys2Proof

/-- The code of a waveform kind (R92). -/
def WaveKind.code : WaveKind → Code
  | .square => 0b00
  | .triangle => 0b01
  | .sine => 0b10
  | .reserved => 0b11

/-- The kind a code stands for (R92). -/
def WaveKind.ofCode (c : Code) : WaveKind :=
  if c = 0b00 then .square else if c = 0b01 then .triangle
  else if c = 0b10 then .sine else .reserved

/-- Bits 5:4 of a selector (R95). -/
def Selector.unitField (sel : Selector) : Code := sel.extractLsb' 4 2

/-- Bits 3:2 of a selector (R95). -/
def Selector.kindField (sel : Selector) : Code := sel.extractLsb' 2 2

/-- Bits 1:0 of a selector (R95). -/
def Selector.stateField (sel : Selector) : Code := sel.extractLsb' 0 2

/-- Why a word names no operation: the bullets of R99, tested in this order, and a word that does
not fit the six bits of a selector (log 11). -/
inductive DecodeError where
  /-- Unit 0b11. -/
  | reservedUnit
  /-- Unit 0b00 with kind 0b10 (SINE) or 0b11. -/
  | reservedKind
  /-- Unit 0b00 or 0b01 with state 0b11. -/
  | reservedState
  /-- Unit 0b01 or 0b10 with a kind field other than 0b00. -/
  | kindNotZero
  /-- Unit 0b10 with a state field other than 0b00. -/
  | stateNotZero
  /-- Not a selector at all: a bit above bit 5 is set (R96: every selector has 6 bits). -/
  | tooWide
deriving DecidableEq, Repr

/-- A row of the operation map (R98). -/
structure OpRow where
  pattern : Selector
  mask : Selector
  op : Instr
deriving DecidableEq, Repr

/-- The operation map (R98), in its order. -/
def opRows : List OpRow :=
  [ ⟨0x00, 0x3F, .oscComputeSq⟩,
    ⟨0x04, 0x3F, .oscComputeTri⟩,
    ⟨0x01, 0x3B, .oscWaiting⟩,
    ⟨0x02, 0x3B, .oscReady⟩,
    ⟨0x10, 0x3F, .mixCompute⟩,
    ⟨0x11, 0x3F, .mixSendack⟩,
    ⟨0x12, 0x3F, .mixIdle⟩,
    ⟨0x20, 0x3F, .divTick⟩ ]

/-- A row matches a selector whose bits under the mask are the pattern. -/
def OpRow.matches (r : OpRow) (sel : Selector) : Bool := sel &&& r.mask == r.pattern

/-- The name of the bullet of R99 a reserved selector falls under. -/
def reservedBecause (sel : Selector) : DecodeError :=
  if sel.unitField = 0b11 then .reservedUnit
  else if sel.unitField = 0b00 then
    if sel.kindField = 0b10 ∨ sel.kindField = 0b11 then .reservedKind else .reservedState
  else if sel.kindField ≠ 0b00 then .kindNotZero
  else if sel.unitField = 0b01 then .reservedState
  else .stateNotZero

/-- The operation a selector names (R97, R98), or the reason it is reserved (R99). -/
def decode (sel : Selector) : Except DecodeError Instr :=
  match opRows.find? (fun r => r.matches sel) with
  | some r => .ok r.op
  | none => .error (reservedBecause sel)

/-- Decoding a word of any size: a selector is its low six bits, and nothing may stand above. -/
def decodeWord (w : Nat) : Except DecodeError Instr :=
  if w < 64 then decode (BitVec.ofNat 6 w) else .error .tooWide

/-- The host's view of the decoder. A row of the table has 6 bits, in whole bytes one byte, so
every word of `nbits` bits is read whole. -/
def decodeTableWord (_nbits w : Nat) : Option Instr := (decodeWord w).toOption

/-- The selector of an operation (R98), with the ignored kind bit `k` of OSC.WAITING and OSC.READY
zero (log 11). -/
def encode : Instr → Selector
  | .oscComputeSq => selectorOf 0b00 0b00 0b00
  | .oscComputeTri => selectorOf 0b00 0b01 0b00
  | .oscWaiting => selectorOf 0b00 0b00 0b01
  | .oscReady => selectorOf 0b00 0b00 0b10
  | .mixCompute => selectorOf 0b01 0b00 0b00
  | .mixSendack => selectorOf 0b01 0b00 0b01
  | .mixIdle => selectorOf 0b01 0b00 0b10
  | .divTick => selectorOf 0b10 0b00 0b00

/-- Every selector of an operation: both values of the ignored bit `k` where the row has one
(R98). -/
def selectorsOf : Instr → List Selector
  | .oscWaiting => [encode .oscWaiting, selectorOf 0b00 0b01 0b01]
  | .oscReady => [encode .oscReady, selectorOf 0b00 0b01 0b10]
  | i => [encode i]

end Sys2Proof
end

