-- ==== Sys2Proof/Machine/State.lean ====
section
/-! DEFINITION. The state of the block: the registers of its N + 1 agents (R30), the configuration
constants the meanings read (R49), and the model's own record of the tick and of the input. -/

namespace Sys2Proof.Machine

/-- `ostate[i]` (R35, R90). Three values, so that code 0b11 cannot be written (R94). -/
inductive OState where
  | compute
  | waiting
  | ready
deriving DecidableEq, Repr

/-- `mstate` (R41, R91). Three values, so that code 0b11 cannot be written (R94). -/
inductive MState where
  | compute
  | sendack
  | idle
deriving DecidableEq, Repr

/-- Oscillator i: its constants `kind_i` and `period_i` (R40) and its registers (R35 to R38). -/
structure Osc where
  voice : Voice
  ostate : OState
  /-- The phase counter (R36). -/
  current : Nat
  /-- The latest sample (R37). -/
  sample : Nat
  /-- The ready flag (R38). -/
  rdy : Bool
deriving DecidableEq, Repr

/-- The mixer's register set (R48). -/
structure Mixer where
  mstate : MState
  /-- The clock-divider counter (R42). -/
  div : Nat
  /-- The accumulator (R43). -/
  mixed : Nat
  /-- `out_byte`, the port `tx_data` (R44, R60). -/
  outByte : Nat
  /-- The broadcast acknowledge (R45). -/
  ack : Bool
  /-- `tx_accept`, the port of that name (R46, R60). -/
  txAccept : Bool
deriving DecidableEq, Repr

/-- The scalar configuration constants (R50, R51, R53) and TRI_RANGE_POLICY (R112). -/
structure Consts where
  W : Nat
  P : Nat
  D : Nat
  triPolicy : TriRangePolicy
deriving DecidableEq, Repr

/-- The whole block, the tick number, and what is known of its input stream. -/
structure State where
  consts : Consts
  /-- Oscillators 1..N, in index order; their number is N (R52). -/
  oscs : List Osc
  mixer : Mixer
  /-- The model's own: the number of the tick about to be evaluated (R23; log 4). -/
  tick : Nat
  /-- The model's own: the next values the environment drives on `tx_ready` (R101; log 3). -/
  txBits : List Bool
  /-- The model's own: the bit it repeats after those, or none where it is free (R101; log 3). -/
  txRest : Option Bool
deriving DecidableEq, Repr

/-- The two fault outcomes a model has (R189). Neither is a behaviour of the block, and a fault
records nothing in its state. -/
inductive Fault where
  /-- An agent's registers compose a selector that names no operation (R94, R99). Raised by the
  tick; reached only from a configuration that the check refuses. Safe. -/
  | reservedSelector (sel : Selector)
  /-- Under TRI_RANGE_POLICY = fault, OSC.COMPUTE.TRI computed a value above 2^W - 1 (R112, R118).
  Raised by OSC.COMPUTE.TRI. Safe. -/
  | triangleOutOfRange
deriving DecidableEq, Repr

/-- Why the model gives no meaning. -/
inductive Refusal where
  /-- The operation has no meaning yet. Raised by the dispatch only. Safe. -/
  | notModelled (mnemonic : String)
  /-- The operation would divide by zero in a state that only a refused configuration, with the
  error named here, could have (R182, R185; log 7). Raised by OSC.COMPUTE.TRI (period // 2 = 0)
  and MIX.SENDACK (N = 0). Safe. -/
  | refusedConfiguration (code : ErrorCode)
deriving DecidableEq, Repr

/-- The configuration a state was built from. -/
def State.cfg (s : State) : Cfg :=
  { W := s.consts.W, P := s.consts.P, D := s.consts.D, voices := s.oscs.map Osc.voice,
    triPolicy := s.consts.triPolicy }

/-- An oscillator at tick 0 (R62, R210). -/
def Osc.initial (v : Voice) : Osc :=
  { voice := v, ostate := .compute, current := 0, sample := 0, rdy := false }

/-- The mixer at tick 0 (R62, R210). -/
def Mixer.initial : Mixer :=
  { mstate := .compute, div := 0, mixed := 0, outByte := 0, ack := false, txAccept := false }

/-- The state at tick 0 of the block built from a configuration (R62, R210), with the input stream
the environment is known to drive. -/
def State.ofCfg (c : Cfg) (bits : List Bool) (rest : Option Bool) : State :=
  { consts := { W := c.W, P := c.P, D := c.D, triPolicy := c.triPolicy }
    oscs := c.voices.map Osc.initial
    mixer := Mixer.initial
    tick := 0
    txBits := bits
    txRest := rest }

/-- The configuration State.reset is built from: the spec's PROG-1, one square voice (95). The
spec fixes no configuration: DESIGN CHOICE (log 2). -/
def resetCfg : Cfg := { W := 16, P := 8, D := 8, voices := [⟨.square, 4⟩] }

/-- The machine right after construction (R58, R62, R210), its input free on every tick. -/
def State.reset : State := State.ofCfg resetCfg [] none

end Sys2Proof.Machine
end

