-- ==== Sys2Proof/Machine/Ops.lean ====
section
/-! DEFINITION. The shared operations: arithmetic of R17 to R20, the sample, phase and narrowing
functions (R111, R112, R114, R141), and the plumbing that performs an operation on the agents that
select it and commits a tick (R72, R97). -/

namespace Sys2Proof.Machine

/-- The outcome of a computation of the model. -/
abbrev Out (α : Type) := Host.Outcome α Fault Refusal

/-- Go on from a next value; a fault or a refusal stands. -/
def bindNext {α β : Type} (r : Out α) (k : α → Out β) : Out β :=
  match r with
  | .next a => k a
  | .fault e => .fault e
  | .refused e => .refused e

/-- MAXS = 2^W - 1 (R18). -/
def maxSample (W : Nat) : Nat := 2 ^ W - 1

/-- `ceil(log2(n))`: the least k with 2^k >= n (R20). -/
def ceilLog2 (n : Nat) : Nat := if n ≤ 1 then 0 else Nat.log2 (n - 1) + 1

/-- A = W + ceil(log2(N)), the width of the accumulator (R17). -/
def accWidth (W N : Nat) : Nat := W + ceilLog2 N

/-- `trunc_W(v) = v mod 2^W` of an unbounded integer (R20, R112). -/
def truncTo (W : Nat) (v : Int) : Nat := (v % ((2 ^ W : Nat) : Int)).toNat

/-- SQUARE(c, p) (R111). -/
def squareSample (W c p : Nat) : Nat := if c > p / 2 then maxSample W else 0

/-- `target` of R112, an unbounded integer. -/
def triangleTarget (W c p : Nat) : Int := ((maxSample W * c / (p / 2) : Nat) : Int)

/-- `raw` of R112, an unbounded integer. -/
def triangleRaw (W c p : Nat) : Int :=
  if c > p / 2 then triangleTarget W c p
  else (maxSample W : Int) - (triangleTarget W c p - (maxSample W : Int))

/-- TRIANGLE(c, p) under TRI_RANGE_POLICY = wrap (R112). -/
def triangleSample (W c p : Nat) : Nat := truncTo W (triangleRaw W c p)

/-- NEXT(c, p): the increment that yields 0 instead of p (R114; R146 for the divider). -/
def nextCount (c p : Nat) : Nat := if c + 1 = p then 0 else c + 1

/-- NARROW(m) = (m // N) >> (W - P) (R141). -/
def narrow (W P N m : Nat) : Nat := (m / N) >>> (W - P)

/-- Apply `f` to every oscillator, in index order. -/
def mapOscs (f : Osc → Out Osc) : List Osc → Out (List Osc)
  | [] => .next []
  | o :: os => bindNext (f o) fun o' => bindNext (mapOscs f os) fun os' => .next (o' :: os')

/-- Replace the oscillators. -/
def State.setOscs (s : State) (os : List Osc) : State := { s with oscs := os }

/-- Replace the mixer's registers. -/
def State.setMixer (s : State) (m : Mixer) : State := { s with mixer := m }

/-- Replace the divider counter. -/
def Mixer.setDiv (m : Mixer) (d : Nat) : Mixer := { m with div := d }

/-- Perform an oscillator operation: every oscillator that selects it does `f` on its own
registers, and nothing else is written (R97, R21; log 1). -/
def performOsc (selects : Osc → Bool) (f : Osc → Out Osc) (s : State) : Out State :=
  bindNext (mapOscs (fun o => if selects o then f o else .next o) s.oscs) fun os =>
    .next (s.setOscs os)

/-- Perform a mixer operation: if the mixer selects it, the mixer does `f` on its registers; nothing
else is written (R97, R21; log 1). -/
def performMix (selects : Mixer → Bool) (f : Mixer → Out Mixer) (s : State) : Out State :=
  if selects s.mixer then bindNext (f s.mixer) fun m => .next (s.setMixer m) else .next s

/-- The commit at the end of a tick (R72): the oscillators as their operations left them, the mixer
as its MIX operation left it but for `div`, which DIV.TICK alone writes (R97), the next tick
number, and the input stream one value on. -/
def State.commit (s : State) (os : List Osc) (m : Mixer) (d : Nat) : State :=
  { s with oscs := os, mixer := m.setDiv d, tick := s.tick + 1, txBits := s.txBits.tail }

end Sys2Proof.Machine
end

