-- ==== Sys2Proof/Machine/Operands.lean ====
section
/-! DEFINITION. What an operation reads from the snapshot (R72, R100): the selectors composed from
an agent's registers (R95, R97), the input `tx_ready` (R59), the ready flags and samples the mixer
sees (R47). -/

namespace Sys2Proof.Machine

/-- The code of `ostate` (R90). -/
def OState.code : OState → Code
  | .compute => 0b00
  | .waiting => 0b01
  | .ready => 0b10

/-- The state a code stands for; code 0b11 is reserved (R90, R94). -/
def OState.ofCode (c : Code) : Option OState :=
  if c = 0b00 then some .compute else if c = 0b01 then some .waiting
  else if c = 0b10 then some .ready else none

/-- The code of `mstate` (R91). -/
def MState.code : MState → Code
  | .compute => 0b00
  | .sendack => 0b01
  | .idle => 0b10

/-- The state a code stands for; code 0b11 is reserved (R91, R94). -/
def MState.ofCode (c : Code) : Option MState :=
  if c = 0b00 then some .compute else if c = 0b01 then some .sendack
  else if c = 0b10 then some .idle else none

/-- The selector of oscillator i, `unit 0b00, kind_i, ostate[i]` (R97). -/
def Osc.selector (o : Osc) : Selector := selectorOf 0b00 o.voice.kind.code o.ostate.code

/-- The selector of the mixer's FSM, `unit 0b01, 0b00, mstate` (R97). -/
def Mixer.selector (m : Mixer) : Selector := selectorOf 0b01 0b00 m.mstate.code

/-- The selector of the mixer's divider, the same on every tick (R97). -/
def divSelector : Selector := selectorOf 0b10 0b00 0b00

/-- A selector names the operation `i`. -/
def selectorNames (sel : Selector) (i : Instr) : Bool := (decode sel).toOption == some i

/-- The oscillator performs operation `i` in this tick (R97). -/
def Osc.selects (i : Instr) (o : Osc) : Bool := selectorNames o.selector i

/-- The mixer's FSM performs operation `i` in this tick (R97). -/
def Mixer.selects (i : Instr) (m : Mixer) : Bool := selectorNames m.selector i

/-- in(tx_ready): the transport's bit in this tick (R21, R59): the next of the stream the
environment is known to drive, else the bit it repeats, else a free value (log 3). -/
def State.txReadyIn (s : State) : Bool :=
  match s.txBits with
  | b :: _ => b
  | [] => s.txRest.getD (Config.txReady s.tick)

/-- N (R52). -/
def State.N (s : State) : Nat := s.oscs.length

/-- `rdy[1] = 1 and ... and rdy[N] = 1` (R150). -/
def allReady (os : List Osc) : Bool := os.all Osc.rdy

/-- `zext_A(sample[1]) + ... + zext_A(sample[N])`, exact (R150, R151). -/
def sampleSum (os : List Osc) : Nat := (os.map Osc.sample).sum

end Sys2Proof.Machine
end

