-- ==== Sys2Proof/Machine/Flags.lean ====
section
/-! DEFINITION. The block's flags (R34): `rdy[i]` is written by its oscillator alone, `ack` and
`tx_accept` by the mixer alone. -/

namespace Sys2Proof.Machine

/-- Write `rdy[i]` (R120, R121). -/
def Osc.setRdy (o : Osc) (b : Bool) : Osc := { o with rdy := b }

/-- Write `ack` (R152, R155). -/
def Mixer.setAck (m : Mixer) (b : Bool) : Mixer := { m with ack := b }

/-- Write `tx_accept` (R152, R155). -/
def Mixer.setTxAccept (m : Mixer) (b : Bool) : Mixer := { m with txAccept := b }

end Sys2Proof.Machine
end

