-- ==== Sys2Proof/Machine/Divider.lean ====
section
/-! DEFINITION. The clock divider's one operation (R145, R146). -/

namespace Sys2Proof.Machine

/-- DIV.TICK on the mixer's registers (R146). -/
def divTick (k : Consts) (m : Mixer) : Out Mixer := .next (m.setDiv (nextCount m.div k.D))

/-- DIV.TICK (R146): it runs on every tick, in every `mstate`. -/
def execDivTick (s : State) : Out State := performMix (fun _ => true) (divTick s.consts) s

end Sys2Proof.Machine
end

