-- ==== Sys2Proof/Machine/Mixer.lean ====
section
/-! DEFINITION. The mixer's three FSM operations (41_mixer.md): each rule on the mixer's registers,
and each operation's meaning. None of them writes `div` (R97). -/

namespace Sys2Proof.Machine

/-- MIX.COMPUTE on the mixer's registers: once every oscillator is ready, latch the exact sum
(R150, R151). -/
def mixCompute (os : List Osc) (m : Mixer) : Out Mixer :=
  .next (if allReady os then { m with mixed := sampleSum os, mstate := .sendack } else m)

/-- MIX.SENDACK on the mixer's registers: acknowledge, and hand the byte over once the transport is
ready (R152, R141). N = 0 is a division by zero that only a refused configuration reaches (R185;
log 7). -/
def mixSendack (k : Consts) (N : Nat) (txReady : Bool) (m : Mixer) : Out Mixer :=
  if N = 0 then .refused (.refusedConfiguration .badCount)
  else .next (if txReady
    then { (m.setAck true).setTxAccept true with
            outByte := narrow k.W k.P N m.mixed, mstate := .idle }
    else m.setAck true)

/-- MIX.IDLE on the mixer's registers: retract both handshakes and wait for the divider's snapshot
value 0 (R155). -/
def mixIdle (m : Mixer) : Out Mixer :=
  .next { (m.setAck false).setTxAccept false with
          mstate := if m.div = 0 then .compute else m.mstate }

/-- MIX.COMPUTE (R150). -/
def execMixCompute (s : State) : Out State :=
  performMix (Mixer.selects .mixCompute) (mixCompute s.oscs) s

/-- MIX.SENDACK (R152). -/
def execMixSendack (s : State) : Out State :=
  performMix (Mixer.selects .mixSendack) (mixSendack s.consts s.N s.txReadyIn) s

/-- MIX.IDLE (R155). -/
def execMixIdle (s : State) : Out State :=
  performMix (Mixer.selects .mixIdle) mixIdle s

end Sys2Proof.Machine
end

