-- ==== Sys2Proof/Machine/Oscillator.lean ====
section
/-! DEFINITION. The oscillator family (40_oscillator.md): one rule per operation on one oscillator's
own registers, with the snapshot's `ack` as its only input, and each operation's meaning, which
performs the rule on every oscillator that selects it. -/

namespace Sys2Proof.Machine

/-- What OSC.COMPUTE writes beside the value of the sample: the phase advances and the state becomes
WAITING; `rdy` holds (R117, R118). -/
def Osc.computed (o : Osc) (v : Nat) : Osc :=
  { o with sample := v, current := nextCount o.current o.voice.period, ostate := .waiting }

/-- OSC.COMPUTE.SQ on one oscillator (R117). -/
def oscComputeSq (k : Consts) (o : Osc) : Out Osc :=
  .next (o.computed (squareSample k.W o.current o.voice.period))

/-- OSC.COMPUTE.TRI on one oscillator (R118, R112). Period // 2 = 0 is a division by zero that only
a refused configuration reaches (R182; log 7). -/
def oscComputeTri (k : Consts) (o : Osc) : Out Osc :=
  if o.voice.period / 2 = 0 then .refused (.refusedConfiguration .triPeriod)
  else if k.triPolicy = .fault ∧ triangleRaw k.W o.current o.voice.period > (maxSample k.W : Int)
  then .fault .triangleOutOfRange
  else .next (o.computed (triangleSample k.W o.current o.voice.period))

/-- OSC.WAITING on one oscillator (R120). -/
def oscWaiting (ack : Bool) (o : Osc) : Out Osc :=
  .next (if ack then o else { o.setRdy true with ostate := .ready })

/-- OSC.READY on one oscillator (R121). -/
def oscReady (ack : Bool) (o : Osc) : Out Osc :=
  .next (if ack then { o.setRdy false with ostate := .compute } else o)

/-- OSC.COMPUTE.SQ (R117). -/
def execOscComputeSq (s : State) : Out State :=
  performOsc (Osc.selects .oscComputeSq) (oscComputeSq s.consts) s

/-- OSC.COMPUTE.TRI (R118). -/
def execOscComputeTri (s : State) : Out State :=
  performOsc (Osc.selects .oscComputeTri) (oscComputeTri s.consts) s

/-- OSC.WAITING (R120). -/
def execOscWaiting (s : State) : Out State :=
  performOsc (Osc.selects .oscWaiting) (oscWaiting s.mixer.ack) s

/-- OSC.READY (R121). -/
def execOscReady (s : State) : Out State :=
  performOsc (Osc.selects .oscReady) (oscReady s.mixer.ack) s

/-- osc_next of R72: one tick of one oscillator with a free `ack` input (R116). -/
def oscNext (k : Consts) (ack : Bool) (o : Osc) : Out Osc :=
  match decode o.selector with
  | .ok .oscComputeSq => oscComputeSq k o
  | .ok .oscComputeTri => oscComputeTri k o
  | .ok .oscWaiting => oscWaiting ack o
  | .ok .oscReady => oscReady ack o
  | .ok .mixCompute | .ok .mixSendack | .ok .mixIdle | .ok .divTick | .error _ =>
    .fault (.reservedSelector o.selector)

end Sys2Proof.Machine
end

