-- ==== Sys2Proof/Machine/Dispatch.lean ====
section
/-! DEFINITION. The dispatch: one arm per operation, each one direct call of its meaning. -/

namespace Sys2Proof.Machine

/-- What operation `i` writes in the tick evaluated from snapshot `s` (R97, R98; log 1). -/
def exec (i : Instr) (s : State) : Host.Outcome State Fault Refusal :=
  match i with
  | .oscComputeSq => Sys2Proof.Machine.execOscComputeSq s
  | .oscComputeTri => Sys2Proof.Machine.execOscComputeTri s
  | .oscWaiting => Sys2Proof.Machine.execOscWaiting s
  | .oscReady => Sys2Proof.Machine.execOscReady s
  | .mixCompute => Sys2Proof.Machine.execMixCompute s
  | .mixSendack => Sys2Proof.Machine.execMixSendack s
  | .mixIdle => Sys2Proof.Machine.execMixIdle s
  | .divTick => Sys2Proof.Machine.execDivTick s

end Sys2Proof.Machine
end

