-- ==== Sys2Proof/Machine/Tick.lean ====
section
/-! DEFINITION. One tick of the whole block (R23, R72, R97, R161): every agent's selector is
composed from its registers, decoded, and executed on the one snapshot; the registers each
operation's agent owns are then committed together. -/

namespace Sys2Proof.Machine

/-- Decode a selector and execute its operation on the snapshot; a reserved selector is a fault
(R99). -/
def runSelector (sel : Selector) (s : State) : Out State :=
  match decode sel with
  | .ok i => exec i s
  | .error _ => .fault (.reservedSelector sel)

/-- The registers of the oscillators `os`, the first of them at position `j`, after the tick from
snapshot `s`: each as the operation it selects left it. -/
def gatherOscs (s : State) : Nat → List Osc → Out (List Osc)
  | _, [] => .next []
  | j, o :: os =>
    bindNext (runSelector o.selector s) fun u =>
      bindNext (gatherOscs s (j + 1) os) fun os' => .next (u.oscs.getD j o :: os')

/-- One tick. If several operations stop, the one of the lowest agent is reported: oscillators in
index order, then the mixer, then the divider (log 10). -/
def tick (s : State) : Out State :=
  bindNext (gatherOscs s 0 s.oscs) fun os =>
    bindNext (runSelector s.mixer.selector s) fun m =>
      bindNext (runSelector divSelector s) fun d =>
        .next (s.commit os m.mixer d.mixer.div)

/-- Put the fields of a selector where the tick composes it from (R95, R97): for the oscillator
unit the kind and the state of oscillator 1, for the mixer unit `mstate`. DIV.TICK runs on every
tick, so its selector is stored nowhere. DESIGN CHOICE (log 2): a reserved selector that no register
can hold is placed nowhere and the state is unchanged: a state code 0b11 (R94), unit 0b01 with a kind
field other than 0b00, unit 0b10 with another field, unit 0b11 (R99). -/
def placeSelector (s : State) (sel : Selector) : State :=
  if sel.unitField = 0b00 then
    match s.oscs, OState.ofCode sel.stateField with
    | o :: os, some st =>
      s.setOscs
        ({ o with voice := { o.voice with kind := WaveKind.ofCode sel.kindField }, ostate := st } :: os)
    | _, _ => s
  else if sel.unitField = 0b01 ∧ sel.kindField = 0b00 then
    match MState.ofCode sel.stateField with
    | some st => s.setMixer { s.mixer with mstate := st }
    | none => s
  else s

end Sys2Proof.Machine
end

