-- ==== Sys2Proof/Machine/Step.lean ====
section
/-! DEFINITION. The step of the machine, which is one tick of the block (R23), and the host's way to
place an operation. -/

namespace Sys2Proof.Machine

/-- One step is one tick of the whole block (R23, R144). -/
def step (s : State) : Host.Outcome State Fault Refusal := tick s

/-- The state in which the next tick performs the operation whose selector is `w`: oscillator 1 or
the mixer is put into the state the selector names (log 2). A word that is no selector is placed
nowhere. -/
def State.withFetchWord (s : State) (_nbits w : Nat) : State :=
  if w < 64 then placeSelector s (BitVec.ofNat 6 w) else s

end Sys2Proof.Machine
end

