-- ==== Sys2Proof/Machine/Configure.lean ====
section
/-! DEFINITION. Bringing the block up (R213): deriving the integer parameters from rates and
frequencies, checking the whole configuration in the order of R187, and constructing the state at
tick 0. `raise ConfigError` (R22) is the `error` result; nothing is built then (R180). -/

namespace Sys2Proof.Machine

/-- `round(n / d)` for `d > 0`; an exact tie k + 1/2 goes as ROUND_MODE says (R102, D11). -/
def roundRatio (mode : RoundMode) (n d : Int) : Int :=
  if 2 * (n % d) < d then n / d
  else if d < 2 * (n % d) then n / d + 1
  else if mode (n / d) then n / d + 1 else n / d

/-- `period = round(sample_rate / frequency)`, which cannot be computed unless both are positive
(R15, R182). -/
def derivePeriod (mode : RoundMode) (sampleRate frequency : Rate) : Option Int :=
  if sampleRate.positive && frequency.positive then
    some (roundRatio mode (sampleRate.num * frequency.den) (sampleRate.den * frequency.num))
  else none

/-- `divisor = system_clock_rate / sample_rate`, rounded (R14, R102). With a rate that is not
positive it counts as 0, a bad divisor (R181; log 15). -/
def deriveDivisor (mode : RoundMode) (clock sampleRate : Rate) : Int :=
  if clock.positive && sampleRate.positive then
    roundRatio mode (clock.num * sampleRate.den) (clock.den * sampleRate.num)
  else 0

/-- The integer configuration a request stands for, given its profile's clock (R213 step 2). -/
def deriveRaw (mode : RoundMode) (clock : Rate) (q : Request) : RawCfg :=
  { W := q.W, P := q.P, D := deriveDivisor mode clock q.sampleRate
    voices := q.voices.map fun v => ⟨v.kind, derivePeriod mode q.sampleRate v.frequency⟩
    triPolicy := q.triPolicy }

/-- The position, counting from `i`, of the first voice with the property. -/
def firstVoice (bad : RawVoice → Bool) : Nat → List RawVoice → Option Nat
  | _, [] => none
  | i, v :: vs => if bad v then some i else firstVoice bad (i + 1) vs

end Sys2Proof.Machine

namespace Sys2Proof

/-- period_i <= 0, or undefined (R182). -/
def RawVoice.badPeriod (v : RawVoice) : Bool :=
  match v.period with
  | none => true
  | some p => decide (p ≤ 0)

/-- TRIANGLE with period_i < 2 (R182). -/
def RawVoice.badTriPeriod (v : RawVoice) : Bool :=
  v.kind == .triangle &&
    match v.period with
    | none => true
    | some p => decide (p < 2)

/-- kind_i is SINE or the reserved code (R183). -/
def RawVoice.badKind (v : RawVoice) : Bool := v.kind == .sine || v.kind == .reserved

/-- The voice of a configuration that passed the check. -/
def RawVoice.toVoice (v : RawVoice) : Voice := ⟨v.kind, (v.period.getD 0).toNat⟩

/-- The configuration tuple of a raw configuration that passed the check. -/
def RawCfg.toCfg (r : RawCfg) : Cfg :=
  { W := r.W.toNat, P := r.P.toNat, D := r.D.toNat, voices := r.voices.map RawVoice.toVoice,
    triPolicy := r.triPolicy }

end Sys2Proof

namespace Sys2Proof.Machine

/-- The first of the errors 2 to 7 that a raw configuration has, in the order of R187. -/
def firstError (r : RawCfg) : Option ConfigError :=
  match firstVoice RawVoice.badPeriod 1 r.voices with
  | some i => some ⟨.badPeriod, .frequency i⟩
  | none =>
    if r.D ≤ 0 then some ⟨.badDivisor, .divisor⟩
    else
      match firstVoice RawVoice.badTriPeriod 1 r.voices with
      | some i => some ⟨.triPeriod, .frequency i⟩
      | none =>
        if r.voices.length < 1 then some ⟨.badCount, .count⟩
        else if ¬ (1 ≤ r.P ∧ r.P < r.W) then some ⟨.badWidth, .width⟩
        else
          match firstVoice RawVoice.badKind 1 r.voices with
          | some i => some ⟨.badKind, .kind i⟩
          | none => none

/-- The checks 2 to 7, of the integers alone (R181 to R183, R185, R186). -/
def checkParams (r : RawCfg) : Except ConfigError Cfg :=
  match firstError r with
  | some e => .error e
  | none => .ok r.toCfg

/-- Check 1: the profile's system clock rate; a missing or unknown profile is an error (R184).
That the error names the parameter `profile` is a DESIGN CHOICE (log 15). -/
def checkProfile (profiles : Profiles) (profile : Option String) : Except ConfigError Rate :=
  match profile.bind (fun n => List.lookup n profiles) with
  | some clock => .ok clock
  | none => .error ⟨.unknownProfile, .profile⟩

/-- All seven checks of a configuration given as integers, the profile first (R180, R187). -/
def checkConfig (profiles : Profiles) (profile : Option String) (r : RawCfg) :
    Except ConfigError Cfg :=
  match checkProfile profiles profile with
  | .error e => .error e
  | .ok _ => checkParams r

/-- Steps 1 to 3 of R213: from a request to a checked configuration. -/
def configure (profiles : Profiles) (mode : RoundMode) (q : Request) : Except ConfigError Cfg :=
  match checkProfile profiles q.profile with
  | .error e => .error e
  | .ok clock => checkParams (deriveRaw mode clock q)

/-- Steps 1 to 4 of R213: the state at tick 0, or the first error and no state (R180). -/
def build (profiles : Profiles) (mode : RoundMode) (q : Request) (bits : List Bool)
    (rest : Option Bool) : Except ConfigError State :=
  match configure profiles mode q with
  | .error e => .error e
  | .ok c => .ok (State.ofCfg c bits rest)

end Sys2Proof.Machine
end

