-- ==== Sys2Proof/Machine/Observe.lean ====
section
/-! DEFINITION. Runs of ticks, and what the outside sees of them (R60, R104, R160). -/

namespace Sys2Proof.Machine

/-- The port `tx_data`, equal to `out_byte` on every tick (R60). -/
def State.txData (s : State) : Nat := s.mixer.outByte

/-- The hand-off of this tick, if there is one: the pair (t, tx_data) on a tick with
`tx_accept = 1` (R160, R196). -/
def State.emission (s : State) : Option (Nat × Nat) :=
  if s.mixer.txAccept then some (s.tick, s.txData) else none

/-- The state `k` ticks later, or the first stop. -/
def runTicks : Nat → State → Out State
  | 0, s => .next s
  | k + 1, s => bindNext (step s) (runTicks k)

/-- The emitted byte stream over the `k` ticks that begin with `s` (R160). -/
def emittedIn : Nat → State → List (Nat × Nat)
  | 0, _ => []
  | k + 1, s =>
    s.emission.toList ++
      match step s with
      | .next t => emittedIn k t
      | .fault _ => []
      | .refused _ => []

/-- The state of one oscillator after the given `ack` inputs, one per tick (R116). -/
def oscRun (k : Consts) : List Bool → Osc → Out Osc
  | [], o => .next o
  | a :: as, o => bindNext (oscNext k a o) (oscRun k as)

/-- The samples one oscillator computes over the given `ack` inputs: one per visit to COMPUTE
(R126). -/
def oscSamples (k : Consts) : List Bool → Osc → List Nat
  | [], _ => []
  | a :: as, o =>
    match oscNext k a o with
    | .next o' => (if o.ostate = .compute then [o'.sample] else []) ++ oscSamples k as o'
    | .fault _ => []
    | .refused _ => []

end Sys2Proof.Machine
end

