-- ==== Sys2Proof/Machine/Notation.lean ====
section
/-! DEFINITION. The configuration notation, the block's "assembly" (R101 to R104): a program as a
list of directives, its elaboration to a configuration and an input stream, and its result. -/

namespace Sys2Proof.Machine

/-- A piece of a `tx_ready` line: plain bits, or `(<bits>)^k` (R101). -/
inductive TxItem where
  | bits (bs : List Bool)
  | group (bs : List Bool) (k : Nat)
deriving DecidableEq, Repr

/-- A `tx_ready` line; `star` stands for the `*` that repeats the last bit for ever (R101). The spec
gives the forms `<bits>`, `<bits>*` and `(<bits>)^k` and does not say whether they combine. DESIGN
CHOICE (log 16): pieces may follow one another in one line, and the star may end any line, after a
group too; it then repeats the last bit the line writes out. -/
structure TxPattern where
  items : List TxItem
  star : Bool
deriving DecidableEq, Repr

/-- The bits a piece writes out. -/
def TxItem.expand : TxItem → List Bool
  | .bits bs => bs
  | .group bs k => (List.replicate k bs).flatten

/-- The bits a line writes out. -/
def TxPattern.expand (p : TxPattern) : List Bool := (p.items.map TxItem.expand).flatten

/-- The bit the line repeats, or none: the ticks after it are then free (log 16). -/
def TxPattern.rest (p : TxPattern) : Option Bool := if p.star then p.expand.getLast? else none

/-- One line of the notation (R101), with the two pseudo-directives (R102). -/
inductive Directive where
  | cfg (W P D : Int)
  | cfgRates (W P : Int) (clk R : Rate)
  | osc (kind : WaveKind) (period : Int)
  | oscRate (kind : WaveKind) (f R : Rate)
  | txReady (p : TxPattern)
  | run (T : Nat)
deriving DecidableEq, Repr

/-- What is wrong with a list of directives. The notation says "exactly one, first" of `cfg` (R101);
the other shapes are the model's (log 16). -/
inductive NotationError where
  | cfgNotFirst
  | cfgRepeated
  | txReadyRepeated
  | runRepeated
  | emptyRepeat
  | config (e : ConfigError)
deriving DecidableEq, Repr

/-- A program (R104): a checked configuration, the `tx_ready` stream, and the tick to report. -/
structure BlockProgram where
  cfg : Cfg
  bits : List Bool
  rest : Option Bool
  ticks : Nat
deriving DecidableEq, Repr

/-- What the lines read so far have said. -/
structure Draft where
  raw : RawCfg
  tx : Option TxPattern := none
  run : Option Nat := none
deriving DecidableEq, Repr

/-- Read one line after the first. -/
def Draft.line (mode : RoundMode) (d : Draft) : Directive → Except NotationError Draft
  | .cfg _ _ _ | .cfgRates _ _ _ _ => .error .cfgRepeated
  | .osc kind period =>
    .ok { d with raw := { d.raw with voices := d.raw.voices ++ [⟨kind, some period⟩] } }
  | .oscRate kind f R =>
    .ok { d with raw := { d.raw with voices := d.raw.voices ++ [⟨kind, derivePeriod mode R f⟩] } }
  | .txReady p =>
    if d.tx.isSome then .error .txReadyRepeated
    else if p.star && p.expand.isEmpty then .error .emptyRepeat
    else .ok { d with tx := some p }
  | .run T => if d.run.isSome then .error .runRepeated else .ok { d with run := some T }

/-- Read the lines after the first, one by one. R101 says that the `cfg` line is first and the `osc`
lines follow index order, and nothing else of the lines' order. DESIGN CHOICE (log 16): the `osc`,
`tx_ready` and `run` lines may stand in any order, an `osc` line after `tx_ready` or `run` too. -/
def Draft.lines (mode : RoundMode) : Draft → List Directive → Except NotationError Draft
  | d, [] => .ok d
  | d, l :: ls =>
    match d.line mode l with
    | .error e => .error e
    | .ok d' => Draft.lines mode d' ls

/-- Read the first line, which is the one `cfg` line (R101). -/
def openDraft (mode : RoundMode) : Directive → Except NotationError Draft
  | .cfg W P D => .ok { raw := { W := W, P := P, D := D, voices := [] } }
  | .cfgRates W P clk R =>
    .ok { raw := { W := W, P := P, D := deriveDivisor mode clk R, voices := [] } }
  | .osc _ _ | .oscRate _ _ _ | .txReady _ | .run _ => .error .cfgNotFirst

/-- The program a read text stands for; the integer configuration is checked in full (R180). DESIGN
CHOICE (log 16): without a `tx_ready` line every tick's tx_ready is free, and without a `run` line
the program runs 0 ticks. -/
def Draft.close (d : Draft) : Except NotationError BlockProgram :=
  match checkParams d.raw with
  | .error e => .error (.config e)
  | .ok c =>
    .ok { cfg := c, bits := (d.tx.map TxPattern.expand).getD [],
          rest := d.tx.bind TxPattern.rest, ticks := d.run.getD 0 }

/-- The program a list of directives stands for (R101 to R103). -/
def elaborate (mode : RoundMode) : List Directive → Except NotationError BlockProgram
  | [] => .error .cfgNotFirst
  | l :: ls =>
    match openDraft mode l with
    | .error e => .error e
    | .ok d =>
      match Draft.lines mode d ls with
      | .error e => .error e
      | .ok d' => d'.close

/-- The state a program starts from (R104, R62). -/
def BlockProgram.initial (p : BlockProgram) : State := State.ofCfg p.cfg p.bits p.rest

/-- A program's result (R104): the state at tick T and the bytes emitted in ticks 0..T-1. -/
def BlockProgram.result (p : BlockProgram) : Out State × List (Nat × Nat) :=
  (runTicks p.ticks p.initial, emittedIn p.ticks p.initial)

end Sys2Proof.Machine
end

