-- ==== Sys2Proof/WellFormed.lean ====
section
/-! DEFINITION. Well-formedness. An operation carries no operand, so each is well formed (R100).
What can be ill formed is the block's program: its configuration (R3, R103). -/

namespace Sys2Proof

/-- Every operation is well formed: it has no operand that could be out of range (R100). -/
def Instr.wf : Instr → Bool
  | .oscComputeSq | .oscComputeTri | .oscWaiting | .oscReady => true
  | .mixCompute | .mixSendack | .mixIdle | .divTick => true

/-- The kind is SQUARE or TRIANGLE (R15, R54). -/
def Voice.kindOk (v : Voice) : Bool := v.kind == .square || v.kind == .triangle

/-- The period is at least 1, and at least 2 for a triangle (R15, R54). -/
def Voice.periodOk (v : Voice) : Bool :=
  decide (1 ≤ v.period) && (v.kind != .triangle || decide (2 ≤ v.period))

/-- 1 <= P < W (R12). -/
def Cfg.widthsOk (c : Cfg) : Bool := decide (1 ≤ c.P) && decide (c.P < c.W)

/-- N >= 1 (R13). -/
def Cfg.countOk (c : Cfg) : Bool := decide (1 ≤ c.N)

/-- D >= 1 (R14). -/
def Cfg.divisorOk (c : Cfg) : Bool := decide (1 ≤ c.D)

/-- The legal configurations of R11 to R15. -/
def Cfg.wf (c : Cfg) : Bool :=
  c.widthsOk && c.countOk && c.divisorOk && c.voices.all Voice.kindOk &&
    c.voices.all Voice.periodOk

end Sys2Proof
end

