-- ==== Sys2Proof/Safety.lean ====
section
/-! DEFINITION. The terms the statements are written in: legal states, the invariant of a running
block, the mixer's part of the tick of R161 written out directly, the byte a round emits, and the test harness of R170
(which is not part of the block). -/

namespace Sys2Proof

/-- WAVE_i(c): SQUARE or TRIANGLE according to the kind, under TRI_RANGE_POLICY = wrap (R126,
R161). -/
def Voice.wave (W : Nat) (v : Voice) (c : Nat) : Nat :=
  match v.kind with
  | .triangle => Machine.triangleSample W c v.period
  | .square | .sine | .reserved => Machine.squareSample W c v.period

/-- The byte of round `k` (R167): NARROW of the sum of every voice's k-th sample. -/
def Cfg.roundByte (c : Cfg) (k : Nat) : Nat :=
  Machine.narrow c.W c.P c.N ((c.voices.map fun v => v.wave c.W (k % v.period)).sum)

/-- The number a rate stands for. -/
def Rate.value (r : Rate) : ℚ := r.num / r.den

end Sys2Proof

namespace Sys2Proof.Machine

/-- The state's configuration is legal (R11 to R15, R180). -/
def State.legal (s : State) : Bool := s.cfg.wf

/-- What holds in every reachable state of a legal block: R36, R37, R42 to R44 (ranges), R119, R123,
R147, R151, R157 to R159, R162. -/
structure Inv (s : State) : Prop where
  legal : s.legal = true
  /-- R119. -/
  phase : ∀ o ∈ s.oscs, o.current < o.voice.period
  /-- R37: W bits. -/
  sample : ∀ o ∈ s.oscs, o.sample < 2 ^ s.consts.W
  /-- R123. -/
  rdy : ∀ o ∈ s.oscs, (o.rdy = true ↔ o.ostate = .ready)
  /-- R162. -/
  lockstep : ∀ o ∈ s.oscs, ∀ o' ∈ s.oscs, o.ostate = o'.ostate
  /-- R43, R151. -/
  mixed : s.mixer.mixed ≤ s.N * maxSample s.consts.W
  /-- R44: P bits. -/
  outByte : s.mixer.outByte < 2 ^ s.consts.P
  /-- R42. -/
  div : s.mixer.div < s.consts.D
  /-- R147. -/
  divTick : s.mixer.div = s.tick % s.consts.D
  /-- R157. -/
  compute : s.mixer.mstate = .compute → s.mixer.ack = false ∧ s.mixer.txAccept = false
  /-- R158, R165: in the first SENDACK tick every oscillator still holds its sample. -/
  sendack : s.mixer.mstate = .sendack → s.mixer.txAccept = false ∧
    (s.mixer.ack = false → ∀ o ∈ s.oscs, o.ostate = .ready)
  /-- R158, R159: in IDLE the two handshakes are 1 together, in its first tick. -/
  idle : s.mixer.mstate = .idle → s.mixer.ack = s.mixer.txAccept

/-- The mixer's part of R161, `div` included, from the snapshot `s` and the input `r`. -/
def mixerBlockTick (s : State) (r : Bool) : Mixer :=
  let m := { s.mixer with div := nextCount s.mixer.div s.consts.D }
  match s.mixer.mstate with
  | .compute =>
    if ∀ o ∈ s.oscs, o.rdy = true then
      { m with mixed := (s.oscs.map Osc.sample).sum, mstate := .sendack }
    else m
  | .sendack =>
    if r = true then
      { m with ack := true, outByte := narrow s.consts.W s.consts.P s.N s.mixer.mixed,
               txAccept := true, mstate := .idle }
    else { m with ack := true }
  | .idle =>
    if s.mixer.div = 0 then { m with ack := false, txAccept := false, mstate := .compute }
    else { m with ack := false, txAccept := false }

/-- The value of `tx_ready` `n` ticks from now (R59, R101). -/
def State.txReadyAfter (s : State) (n : Nat) : Bool :=
  match s.txBits[n]? with
  | some b => b
  | none => s.txRest.getD (Config.txReady (s.tick + n))

/-- A test harness that overrides the wire `rdy` of the oscillator at position `i` (counting from 0)
in a snapshot (R170, V-STALL-1). NOT a behaviour of the block (log 14). -/
def forceNotReady (i : Nat) (s : State) : State :=
  s.setOscs (s.oscs.modify i fun o => o.setRdy false)

/-- The states of a run in which the harness overrides the wire in every snapshot. -/
def runForced (i : Nat) : Nat → State → Out State
  | 0, s => .next (forceNotReady i s)
  | k + 1, s => bindNext (step (forceNotReady i s)) (runForced i k)

end Sys2Proof.Machine
end

