-- ==== Sys2Proof/Certificates/Slice0/Obligations.lean ====
section
/-! DEFINITION. The statements for the provers. Each docstring names the rule of spec/ it formalises,
or says that a clause rests on a decision of the spec (92_eei_decisions.md) or of the model. The
selectors named in the statements about operations are the spec's decision D17. -/

open Sys2Proof Sys2Proof.Machine

/-! ## Encodings -/

/-- The operation map: a selector decodes to a row's operation exactly when it equals the row's match
under the row's mask. The selector is the spec's own decision D17. -/
def Obligations.OperationMapIsMaskAndMatch : Prop :=
  ∀ sel : Selector,
    (decode sel = .ok .oscComputeSq ↔ sel &&& 0x3F = 0x00) ∧
    (decode sel = .ok .oscComputeTri ↔ sel &&& 0x3F = 0x04) ∧
    (decode sel = .ok .oscWaiting ↔ sel &&& 0x3B = 0x01) ∧
    (decode sel = .ok .oscReady ↔ sel &&& 0x3B = 0x02) ∧
    (decode sel = .ok .mixCompute ↔ sel &&& 0x3F = 0x10) ∧
    (decode sel = .ok .mixSendack ↔ sel &&& 0x3F = 0x11) ∧
    (decode sel = .ok .mixIdle ↔ sel &&& 0x3F = 0x12) ∧
    (decode sel = .ok .divTick ↔ sel &&& 0x3F = 0x20)

/-- The reserved selectors are those of the five bullets of the spec's decision D17, and no
others. -/
def Obligations.ReservedSelectorsAreRejected : Prop :=
  ∀ sel : Selector,
    (∃ e, decode sel = .error e) ↔
      sel.unitField = 3 ∨
      (sel.unitField = 0 ∧ (sel.kindField = 2 ∨ sel.kindField = 3)) ∨
      ((sel.unitField = 0 ∨ sel.unitField = 1) ∧ sel.stateField = 3) ∨
      ((sel.unitField = 1 ∨ sel.unitField = 2) ∧ sel.kindField ≠ 0) ∨
      (sel.unitField = 2 ∧ sel.stateField ≠ 0)

/-- A selector decodes to an operation exactly when it is one of the operation's selectors; the
encoder's is one of them, so decoding an encoded operation gives it back (D17). -/
def Obligations.DecodeInvertsEncode : Prop :=
  ∀ i : Instr, decode (encode i) = .ok i ∧
    ∀ sel : Selector, decode sel = .ok i ↔ sel ∈ selectorsOf i

/-- A few words written out bit by bit from the operation map decode as the map says; the words
0x03, 0x08, 0x14 and 0x30 are reserved, and a word with a bit above bit 5 is no selector (D17; the
last is the model's choice, log 11). -/
def Obligations.WrittenOutWordsDecode : Prop :=
  decodeTableWord 8 0b00000000 = some .oscComputeSq ∧
  decodeTableWord 8 0b00000100 = some .oscComputeTri ∧
  decodeTableWord 8 0b00000001 = some .oscWaiting ∧
  decodeTableWord 8 0b00000101 = some .oscWaiting ∧
  decodeTableWord 8 0b00000110 = some .oscReady ∧
  decodeTableWord 8 0b00010001 = some .mixSendack ∧
  decodeTableWord 8 0b00010010 = some .mixIdle ∧
  decodeTableWord 8 0b00100000 = some .divTick ∧
  decodeTableWord 8 0b00000011 = none ∧
  decodeTableWord 8 0b00001000 = none ∧
  decodeTableWord 8 0b00010100 = none ∧
  decodeTableWord 8 0b00110000 = none ∧
  decodeTableWord 8 0b01000000 = none

/-- The selectors the agents compose: unit 00, the kind's code and the state's code for an
oscillator; unit 01, 00 and the state's code for the mixer; 10 00 00 for the divider. The codes are
the spec's own decisions D16 and D17. -/
def Obligations.AgentsComposeTheirSelectors : Prop :=
  (∀ o : Osc,
    o.selector.unitField = 0b00 ∧
    o.selector.kindField = (match o.voice.kind with
      | .square => 0b00 | .triangle => 0b01 | .sine => 0b10 | .reserved => 0b11) ∧
    o.selector.stateField = (match o.ostate with
      | .compute => 0b00 | .waiting => 0b01 | .ready => 0b10)) ∧
  (∀ m : Mixer,
    m.selector.unitField = 0b01 ∧ m.selector.kindField = 0b00 ∧
    m.selector.stateField = (match m.mstate with
      | .compute => 0b00 | .sendack => 0b01 | .idle => 0b10)) ∧
  divSelector = 0b100000

/-- Placing an operation's selector makes some agent select exactly it in the next tick: oscillator 1,
the mixer, or the divider, which always selects DIV.TICK; a reserved selector of another unit than the
oscillators' is placed nowhere. How a word is placed is the model's choice (log 2). -/
def Obligations.PlacedSelectorIsSelected : Prop :=
  (∀ (s : State) (i : Instr) (sel : Selector), 1 ≤ s.N → sel ∈ selectorsOf i →
    let t := s.withFetchWord 8 sel.toNat
    (∃ o, t.oscs[0]? = some o ∧ o.selector = sel) ∨ t.mixer.selector = sel ∨
      divSelector = sel) ∧
  ∀ (s : State) (sel : Selector), sel.unitField ≠ 0 → (∃ e, decode sel = .error e) →
    s.withFetchWord 8 sel.toNat = s

/-! ## The meaning of each operation, with its frame -/

/-- R117 (with R111 and the increment of R114): every square oscillator in COMPUTE, and nothing else,
is written. The snapshot's `ack` is not read; `rdy` is not written, and is 0 in every state of a
running block. -/
def Obligations.ComputeSquareResult : Prop :=
  decode 0x00 = .ok .oscComputeSq ∧
  (∀ s : State, exec .oscComputeSq s = .next { s with
    oscs := s.oscs.map fun o =>
      if o.voice.kind = .square ∧ o.ostate = .compute then
        { o with
          sample := if o.current > o.voice.period / 2 then 2 ^ s.consts.W - 1 else 0
          current := if o.current + 1 = o.voice.period then 0 else o.current + 1
          ostate := .waiting }
      else o }) ∧
  ∀ s : State, Inv s → ∀ o ∈ s.oscs, o.ostate = .compute → o.rdy = false

/-- OSC.COMPUTE.TRI under TRI_RANGE_POLICY = wrap: the literal formula in unbounded integers, reduced
mod 2^W. The reduction is the spec's own decision D8. -/
def Obligations.ComputeTriangleWrapResult : Prop :=
  ∀ s : State, s.consts.triPolicy = .wrap →
    (∀ o ∈ s.oscs, o.voice.kind = .triangle → o.ostate = .compute → 2 ≤ o.voice.period) →
    exec .oscComputeTri s = .next { s with
      oscs := s.oscs.map fun o =>
        if o.voice.kind = .triangle ∧ o.ostate = .compute then
          let h : Int := (o.voice.period / 2 : Nat)
          let maxs : Int := 2 ^ s.consts.W - 1
          let target : Int := maxs * o.current / h
          let raw : Int := if (o.current : Int) > h then target else maxs - (target - maxs)
          { o with
            sample := (raw % 2 ^ s.consts.W).toNat
            current := if o.current + 1 = o.voice.period then 0 else o.current + 1
            ostate := .waiting }
        else o }

/-- OSC.COMPUTE.TRI under TRI_RANGE_POLICY = fault: it faults exactly when some selecting
oscillator's raw value is above 2^W - 1; otherwise it completes with the raw value (decision D8). -/
def Obligations.ComputeTriangleFaultPolicy : Prop :=
  ∀ s : State, s.consts.triPolicy = .fault →
    (∀ o ∈ s.oscs, o.voice.kind = .triangle → o.ostate = .compute → 2 ≤ o.voice.period) →
    ((∃ o ∈ s.oscs, o.voice.kind = .triangle ∧ o.ostate = .compute ∧
        triangleRaw s.consts.W o.current o.voice.period > 2 ^ s.consts.W - 1) →
      exec .oscComputeTri s = .fault .triangleOutOfRange) ∧
    ((∀ o ∈ s.oscs, o.voice.kind = .triangle → o.ostate = .compute →
        triangleRaw s.consts.W o.current o.voice.period ≤ 2 ^ s.consts.W - 1) →
      ∃ t, exec .oscComputeTri s = .next t ∧ t = { s with
        oscs := s.oscs.map fun o =>
          if o.voice.kind = .triangle ∧ o.ostate = .compute then
            { o with
              sample :=
                (triangleRaw s.consts.W o.current o.voice.period % 2 ^ s.consts.W).toNat
              current := if o.current + 1 = o.voice.period then 0 else o.current + 1
              ostate := .waiting }
          else o })

/-- R120: every oscillator in WAITING (of a kind of the block) offers its sample if `ack` is 0 in the
snapshot, and otherwise stays; nothing else is written. With `ack` held at 1 it stays in WAITING for ever. -/
def Obligations.WaitingResult : Prop :=
  decode 0x01 = .ok .oscWaiting ∧ decode 0x05 = .ok .oscWaiting ∧
  (∀ s : State, exec .oscWaiting s = .next { s with
    oscs := s.oscs.map fun o =>
      if o.voice.kindOk = true ∧ o.ostate = .waiting ∧ s.mixer.ack = false then
        { o with rdy := true, ostate := .ready }
      else o }) ∧
  ∀ (k : Consts) (o : Osc) (n : Nat), o.voice.kindOk = true → o.ostate = .waiting →
    oscRun k (List.replicate n true) o = .next o

/-- R121: every oscillator in READY (of a kind of the block) retracts its offer if `ack` is 1 in the
snapshot, and otherwise holds it; nothing else is written. With `ack` held at 0 it stays in READY for ever. -/
def Obligations.ReadyResult : Prop :=
  decode 0x02 = .ok .oscReady ∧ decode 0x06 = .ok .oscReady ∧
  (∀ s : State, exec .oscReady s = .next { s with
    oscs := s.oscs.map fun o =>
      if o.voice.kindOk = true ∧ o.ostate = .ready ∧ s.mixer.ack = true then
        { o with rdy := false, ostate := .compute }
      else o }) ∧
  ∀ (k : Consts) (o : Osc) (n : Nat), o.voice.kindOk = true → o.ostate = .ready →
    oscRun k (List.replicate n false) o = .next o

/-- R150: in COMPUTE the mixer latches the exact sum once every `rdy` is 1, and otherwise writes
nothing; `ack`, `tx_accept` and `out_byte` hold, and `ack` is 0 in every state of a running block.
The sum fits the accumulator. -/
def Obligations.MixComputeResult : Prop :=
  decode 0x10 = .ok .mixCompute ∧
  (∀ s : State, exec .mixCompute s = .next { s with
    mixer :=
      if s.mixer.mstate = .compute ∧ ∀ o ∈ s.oscs, o.rdy = true then
        { s.mixer with mixed := (s.oscs.map Osc.sample).sum, mstate := .sendack }
      else s.mixer }) ∧
  ∀ s : State, Inv s →
    (s.mixer.mstate = .compute → s.mixer.ack = false) ∧
    (s.oscs.map Osc.sample).sum < 2 ^ accWidth s.consts.W s.N

/-- MIX.SENDACK: `ack` is set; with `tx_ready` = 1 the narrowed average is handed over and the mixer
goes to IDLE, otherwise it stays. That the flags are registers is the spec's decision D5. -/
def Obligations.MixSendackResult : Prop :=
  ∀ s : State, 1 ≤ s.N →
    exec .mixSendack s = .next { s with
      mixer :=
        if s.mixer.mstate = .sendack then
          if s.txReadyIn = true then
            { s.mixer with
              ack := true
              outByte := s.mixer.mixed / s.N / 2 ^ (s.consts.W - s.consts.P)
              txAccept := true
              mstate := .idle }
          else { s.mixer with ack := true }
        else s.mixer }

/-- MIX.IDLE: both handshakes are retracted, and the mixer leaves for COMPUTE if the snapshot's `div`
is 0. That the snapshot's value is tested is the spec's decision D6. -/
def Obligations.MixIdleResult : Prop :=
  ∀ s : State, exec .mixIdle s = .next { s with
    mixer :=
      if s.mixer.mstate = .idle then
        { s.mixer with
          ack := false
          txAccept := false
          mstate := if s.mixer.div = 0 then .compute else .idle }
      else s.mixer }

/-- R146: DIV.TICK advances `div` and writes nothing else, whatever `mstate` is; it runs on every
tick; with D = 1 `div` stays 0, and `div` never holds D. -/
def Obligations.DivTickResult : Prop :=
  decode 0x20 = .ok .divTick ∧
  (∀ s : State, exec .divTick s = .next { s with
    mixer := { s.mixer with
      div := if s.mixer.div + 1 = s.consts.D then 0 else s.mixer.div + 1 } }) ∧
  (∀ s t : State, step s = .next t →
    t.mixer.div = if s.mixer.div + 1 = s.consts.D then 0 else s.mixer.div + 1) ∧
  ∀ s t : State, s.mixer.div < s.consts.D → step s = .next t →
    t.mixer.div < s.consts.D ∧ (s.consts.D = 1 → t.mixer.div = 0)

/-- The frame of every operation: an oscillator operation writes no mixer register and no constant, a
mixer operation no oscillator register; an oscillator that does not select the operation keeps its
whole record, and a mixer that does not select a MIX operation keeps all its registers; only DIV.TICK
writes `div` and it writes nothing else; the tick number and the input stream are the tick's, not an
operation's. That the two operations of the
mixer write disjoint registers is stated under the spec's decision D17. -/
def Obligations.OperationsWriteOnlyTheirAgent : Prop :=
  ∀ (i : Instr) (s t : State), exec i s = .next t →
    t.consts = s.consts ∧ t.tick = s.tick ∧ t.txBits = s.txBits ∧ t.txRest = s.txRest ∧
    t.oscs.length = s.oscs.length ∧ t.oscs.map Osc.voice = s.oscs.map Osc.voice ∧
    (∀ (j : Nat) (o : Osc), s.oscs[j]? = some o → o.selects i = false → t.oscs[j]? = some o) ∧
    (i ∈ [.mixCompute, .mixSendack, .mixIdle] → s.mixer.selects i = false →
      t.mixer = s.mixer) ∧
    (i ∈ [.oscComputeSq, .oscComputeTri, .oscWaiting, .oscReady] → t.mixer = s.mixer) ∧
    (i ∈ [.oscWaiting, .oscReady] →
      t.oscs.map Osc.sample = s.oscs.map Osc.sample ∧
      t.oscs.map Osc.current = s.oscs.map Osc.current) ∧
    (i ∈ [.oscComputeSq, .oscComputeTri] → t.oscs.map Osc.rdy = s.oscs.map Osc.rdy) ∧
    (i ∈ [.mixCompute, .mixSendack, .mixIdle, .divTick] → t.oscs = s.oscs) ∧
    (i ∈ [.mixCompute, .mixSendack, .mixIdle] → t.mixer.div = s.mixer.div) ∧
    (i ∈ [.mixSendack, .mixIdle] → t.mixer.mixed = s.mixer.mixed) ∧
    (i ∈ [.mixCompute, .mixIdle] → t.mixer.outByte = s.mixer.outByte) ∧
    (i = .divTick → ∃ d, t.mixer = { s.mixer with div := d })

/-- The two divisions by zero that only a refused configuration could reach stop by name: a triangle in
COMPUTE with period // 2 = 0 under the wrap policy, and SENDACK with N = 0. The model's choice
(log 7). -/
def Obligations.DivisionsByZeroAreRefused : Prop :=
  (∀ s : State, s.consts.triPolicy = .wrap →
    (∃ o ∈ s.oscs, o.voice.kind = .triangle ∧ o.ostate = .compute ∧ o.voice.period < 2) →
    exec .oscComputeTri s = .refused (.refusedConfiguration .triPeriod)) ∧
  (∀ s : State, s.N = 0 → s.mixer.mstate = .sendack →
    exec .mixSendack s = .refused (.refusedConfiguration .badCount)) ∧
  (∀ s : State, s.N = 0 → s.mixer.mstate ≠ .sendack → exec .mixSendack s = .next s)

/-! ## The sample, narrowing and counting functions -/

/-- Where the literal triangle formula lands: above 2^W - 1 before the midpoint, on it at the
midpoint, at or above it after; and what the wrapped sample then is. Follows from the formula and the
reduction of decision D8. -/
def Obligations.TriangleShape : Prop :=
  ∀ W c p : Nat, 1 ≤ W → 2 ≤ p → c < p →
    (c < p / 2 →
      (maxSample W : Int) < triangleRaw W c p ∧ triangleRaw W c p ≤ 2 * (maxSample W : Int) ∧
      triangleSample W c p = maxSample W - 1 - maxSample W * c / (p / 2)) ∧
    (c = p / 2 → triangleRaw W c p = maxSample W ∧ triangleSample W c p = maxSample W) ∧
    (c > p / 2 →
      (maxSample W : Int) ≤ triangleRaw W c p ∧ triangleRaw W c p ≤ 2 * (maxSample W : Int) ∧
      (triangleRaw W c p = maxSample W → triangleSample W c p = maxSample W) ∧
      (triangleRaw W c p > maxSample W →
        triangleSample W c p = maxSample W * c / (p / 2) - 2 ^ W)) ∧
    (c = 0 → triangleSample W c p = maxSample W - 1) ∧
    (c = 2 * (p / 2) → triangleSample W c p = maxSample W - 1)

/-- P1: in one cycle a square oscillator's samples are 2^W - 1 at exactly the positions
period // 2 + 1 .. period - 1 and 0 elsewhere, period - period // 2 - 1 of them; and its k-th sample
repeats with the period. -/
def Obligations.SquareHighSamplesPerCycle : Prop :=
  ∀ W p : Nat, 1 ≤ W → 1 ≤ p →
    ((List.range p).filter fun c => squareSample W c p == maxSample W).length = p - p / 2 - 1 ∧
    (∀ c < p, (squareSample W c p = maxSample W ↔ p / 2 + 1 ≤ c) ∧
      (squareSample W c p = 0 ↔ c ≤ p / 2)) ∧
    ∀ k : Nat, (⟨.square, p⟩ : Voice).wave W ((k + p) % p) = (⟨.square, p⟩ : Voice).wave W (k % p)

/-- The spec's rule R142, which it derives from R141 and the bounds on P and W (R12; that P is at least 1
is its decision D22): the average of a sum of N samples is a sample, its narrowing fits P bits without loss, and
the shift is neither by zero nor by the full width. -/
def Obligations.NarrowFitsOutputByte : Prop :=
  ∀ W P N m : Nat, 1 ≤ P → P < W → 1 ≤ N → m ≤ N * maxSample W →
    m / N ≤ maxSample W ∧ narrow W P N m ≤ maxSample W >>> (W - P) ∧
    maxSample W >>> (W - P) = 2 ^ P - 1 ∧ narrow W P N m < 2 ^ P ∧
    1 ≤ W - P ∧ W - P < W

/-- The emitted value is the top P bits of the W-bit floor average: bit b of it is bit W - P + b of
the average. -/
def Obligations.NarrowIsTopBitsOfAverage : Prop :=
  ∀ W P N m : Nat, 1 ≤ P → P < W → 1 ≤ N → m ≤ N * maxSample W →
    narrow W P N m = m / N / 2 ^ (W - P) ∧
    (∀ b < P, (narrow W P N m).testBit b = (m / N).testBit (W - P + b)) ∧
    ∀ b ≥ P, (narrow W P N m).testBit b = false

/-- R17: the accumulator's width is W + ceil(log2(N)), where ceil(log2(N)) is the least k with
2^k >= N; it is W for N = 1, and N samples of W bits never overflow it. -/
def Obligations.AccumulatorNeverOverflows : Prop :=
  ∀ W N : Nat, 1 ≤ N →
    accWidth W N = W + ceilLog2 N ∧
    N ≤ 2 ^ ceilLog2 N ∧ (∀ k, N ≤ 2 ^ k → ceilLog2 N ≤ k) ∧
    (N = 1 → accWidth W N = W) ∧
    N * (2 ^ W - 1) < 2 ^ accWidth W N ∧
    ∀ os : List Osc, os.length = N → (∀ o ∈ os, o.sample < 2 ^ W) →
      sampleSum os ≤ N * (2 ^ W - 1)

/-- R114: the increment stays below the period, is c + 1 but for the last value, and never yields the
period; the last value wraps to 0. -/
def Obligations.PhaseIncrementWraps : Prop :=
  ∀ c p : Nat, c < p →
    (c + 1 = p → nextCount c p = 0) ∧ (c + 1 ≠ p → nextCount c p = c + 1) ∧
    nextCount c p < p ∧ nextCount c p ≠ p

/-! ## The tick of the composed block -/

/-- A step runs the decoded operations: in a step that answers, each agent's registers are those its
decoded operation leaves when executed on the snapshot (an oscillator its own record, the mixer its
registers but for `div`, the divider `div`); the constants stand, the tick number and the input
stream advance by one; and if every agent's operation answers, the step does. -/
def Obligations.StepRunsDecodedOperations : Prop :=
  (∀ s t : State, step s = .next t →
    t.oscs.length = s.oscs.length ∧
    (∀ (j : Nat) (o : Osc) (i : Instr), s.oscs[j]? = some o → decode o.selector = .ok i →
      ∃ u, exec i s = .next u ∧ t.oscs[j]? = u.oscs[j]?) ∧
    (∀ i : Instr, decode s.mixer.selector = .ok i →
      ∃ u d, exec i s = .next u ∧ exec .divTick s = .next d ∧
        t.mixer = { u.mixer with div := d.mixer.div }) ∧
    t.consts = s.consts ∧ t.tick = s.tick + 1 ∧ t.txBits = s.txBits.tail ∧
    t.txRest = s.txRest) ∧
  ∀ s : State,
    (∀ o ∈ s.oscs, ∃ i u, decode o.selector = .ok i ∧ exec i s = .next u) →
    (∃ i u, decode s.mixer.selector = .ok i ∧ exec i s = .next u) →
    ∃ t, step s = .next t

/-- R72: a step of a legal block under TRI_RANGE_POLICY = wrap is the whole-block tick: every agent's
next state computed from the one snapshot and the tick's `tx_ready`, all committed together. The
right side is R161 written out directly, and does not go through the decoder. -/
def Obligations.StepIsWholeBlockTick : Prop :=
  ∀ s : State, s.legal = true → s.consts.triPolicy = .wrap →
    step s = .next { s with
      oscs := s.oscs.map fun o =>
        match o.ostate with
        | .compute =>
          { o with
            sample := o.voice.wave s.consts.W o.current
            current := if o.current + 1 = o.voice.period then 0 else o.current + 1
            ostate := .waiting }
        | .waiting =>
          if s.mixer.ack = false then { o with rdy := true, ostate := .ready } else o
        | .ready =>
          if s.mixer.ack = true then { o with rdy := false, ostate := .compute } else o
      mixer := mixerBlockTick s s.txReadyIn
      tick := s.tick + 1
      txBits := s.txBits.tail }

/-- The invariant of a running block is kept by every step: legal configuration, counters and
registers in range, `rdy` exactly in READY, all oscillators in one FSM state, `div` the tick number
modulo D, and the relations between `mstate`, `ack` and `tx_accept`. It ranges over every state, under
both policies and every input. -/
def Obligations.EveryStepKeepsInvariant : Prop :=
  ∀ s t : State, Inv s → step s = .next t → Inv t

/-- The invariant holds in the reset state. The reset values are the spec's own decision D3; the
configuration of State.reset is the model's choice (log 2). -/
def Obligations.InvariantAtReset : Prop := Inv State.reset

/-- The invariant holds at tick 0 of every legal configuration, whatever the input stream (the values
at tick 0 are the spec's decision D3). -/
def Obligations.InvariantAtConstruction : Prop :=
  ∀ (c : Cfg) (bits : List Bool) (rest : Option Bool), c.wf = true →
    Inv (State.ofCfg c bits rest)

/-- The state at tick 0: every oscillator in COMPUTE with current, sample and rdy 0; the mixer in
COMPUTE with div, mixed, out_byte, ack and tx_accept 0. The spec's own decision D3. -/
def Obligations.ConstructionState : Prop :=
  ∀ (c : Cfg) (bits : List Bool) (rest : Option Bool),
    (State.ofCfg c bits rest).cfg = c ∧
    (∀ o ∈ (State.ofCfg c bits rest).oscs,
      o.ostate = .compute ∧ o.current = 0 ∧ o.sample = 0 ∧ o.rdy = false) ∧
    (State.ofCfg c bits rest).mixer =
      { mstate := .compute, div := 0, mixed := 0, outByte := 0, ack := false, txAccept := false } ∧
    (State.ofCfg c bits rest).tick = 0

/-- A legal block under TRI_RANGE_POLICY = wrap never stops: after any number of ticks, on any input,
there is a next state. The running block raises no exception (R188); the policy is decision D8. -/
def Obligations.RunningBlockNeverStops : Prop :=
  ∀ s : State, s.legal = true → s.consts.triPolicy = .wrap →
    ∀ n : Nat, ∃ t, runTicks n s = .next t

/-- A step of a legal block either answers or, under TRI_RANGE_POLICY = fault alone, faults on a
triangle value out of range; it faults exactly when some triangle oscillator in COMPUTE computes one
(decision D8). -/
def Obligations.LegalStepStopsOnlyOnTriangleRange : Prop :=
  ∀ s : State, s.legal = true →
    ((∃ t, step s = .next t) ∨ step s = .fault .triangleOutOfRange) ∧
    (step s = .fault .triangleOutOfRange ↔
      s.consts.triPolicy = .fault ∧
      ∃ o ∈ s.oscs, o.voice.kind = .triangle ∧ o.ostate = .compute ∧
        triangleRaw s.consts.W o.current o.voice.period > (maxSample s.consts.W : Int))

/-- A state in which some oscillator has a reserved kind, which no checked configuration gives, has no
next state; if nothing else stops the tick, it faults with the reserved selector. The selectors are
decision D17. -/
def Obligations.ReservedKindFaults : Prop :=
  ∀ s : State, (∃ o ∈ s.oscs, o.voice.kind = .sine ∨ o.voice.kind = .reserved) →
    (∀ t, step s ≠ .next t) ∧
    (s.consts.triPolicy = .wrap →
      (∀ o ∈ s.oscs, o.voice.kind = .triangle → 2 ≤ o.voice.period) →
      ∃ o ∈ s.oscs, (o.voice.kind = .sine ∨ o.voice.kind = .reserved) ∧
        step s = .fault (.reservedSelector o.selector))

/-- No tick changes the configuration: W, P, N, D, every kind and period, and the policy. -/
def Obligations.ConfigurationNeverChanges : Prop :=
  ∀ (n : Nat) (s t : State), runTicks n s = .next t →
    t.cfg = s.cfg ∧ t.N = s.N ∧ t.consts = s.consts

/-- The value the transport drives reaches nothing but SENDACK: in a tick whose `mstate` is another,
the step does not depend on `tx_ready`. -/
def Obligations.TransportReadyOnlyMattersInSendack : Prop :=
  ∀ (s : State) (b b' : Bool) (bits : List Bool), s.mixer.mstate ≠ .sendack →
    step { s with txBits := b :: bits } = step { s with txBits := b' :: bits }

/-! ## One oscillator under a free `ack` -/

/-- The oscillator's transitions read only `ostate` and `ack`: two oscillators of any two kinds,
periods, phases and samples that agree on `ostate` and `rdy` still agree after a tick with the same
`ack`. -/
def Obligations.TransitionsIgnoreKindAndPhase : Prop :=
  ∀ (k k' : Consts) (a : Bool) (o p o' p' : Osc), o.ostate = p.ostate → o.rdy = p.rdy →
    oscNext k a o = .next o' → oscNext k' a p = .next p' →
    o'.ostate = p'.ostate ∧ o'.rdy = p'.rdy

/-- An oscillator never stalls by itself: with a legal voice and the wrap policy every tick answers;
COMPUTE goes to WAITING, WAITING to READY exactly on `ack` = 0, READY to COMPUTE exactly on
`ack` = 1. -/
def Obligations.OscillatorTransitionTable : Prop :=
  ∀ (k : Consts) (a : Bool) (o : Osc), k.triPolicy = .wrap → o.voice.kindOk = true →
    o.voice.periodOk = true →
    ∃ o', oscNext k a o = .next o' ∧ o'.voice = o.voice ∧
      (o.ostate = .compute → o'.ostate = .waiting ∧ o'.rdy = o.rdy) ∧
      (o.ostate = .waiting → a = true → o' = o) ∧
      (o.ostate = .waiting → a = false → o' = { o with rdy := true, ostate := .ready }) ∧
      (o.ostate = .ready → a = false → o' = o) ∧
      (o.ostate = .ready → a = true → o' = { o with rdy := false, ostate := .compute })

/-- P2: between two windows of `rdy` = 1 there are at least two ticks of `rdy` = 0: when `rdy` falls
the oscillator is in COMPUTE, and after one more tick, whatever `ack` is, in WAITING, still with
`rdy` = 0. -/
def Obligations.ReadyStaysLowTwoTicks : Prop :=
  ∀ (k : Consts) (a a' : Bool) (o o1 o2 : Osc), (o.rdy = true ↔ o.ostate = .ready) →
    o.rdy = true → oscNext k a o = .next o1 → o1.rdy = false → oscNext k a' o1 = .next o2 →
    a = true ∧ o1.ostate = .compute ∧ o2.ostate = .waiting ∧ o2.rdy = false

/-- An oscillator's k-th computed sample is WAVE(k mod period), under any `ack` sequence. -/
def Obligations.OscillatorSamplesInOrder : Prop :=
  ∀ (k : Consts) (v : Voice) (acks : List Bool), k.triPolicy = .wrap → v.kindOk = true →
    v.periodOk = true →
    oscSamples k acks (Osc.initial v) =
      (List.range (oscSamples k acks (Osc.initial v)).length).map
        fun n => v.wave k.W (n % v.period)

/-- `sample[i]` does not change in a tick that begins with `rdy[i]` = 1. -/
def Obligations.SampleStableWhileReady : Prop :=
  ∀ s t : State, Inv s → step s = .next t → ∀ (j : Nat) (o o' : Osc),
    s.oscs[j]? = some o → t.oscs[j]? = some o' → o.rdy = true → o'.sample = o.sample

/-! ## The mixer's outputs and timing -/

/-- After a tick, `ack` is 1 exactly if the tick was a SENDACK tick; `tx_accept` is 1 exactly if the
tick led from SENDACK to IDLE, and then `out_byte` is the narrowed sum. -/
def Obligations.AckAndAcceptFollowSendack : Prop :=
  ∀ s t : State, Inv s → step s = .next t →
    (t.mixer.ack = true ↔ s.mixer.mstate = .sendack) ∧
    (t.mixer.txAccept = true ↔ s.mixer.mstate = .sendack ∧ t.mixer.mstate = .idle) ∧
    (t.mixer.txAccept = true →
      s.txReadyIn = true ∧ t.mixer.outByte = narrow s.consts.W s.consts.P s.N s.mixer.mixed)

/-- `div` is the tick number modulo D at every tick of every run from construction. -/
def Obligations.DividerCountsTicks : Prop :=
  ∀ (c : Cfg) (bits : List Bool) (rest : Option Bool) (n : Nat) (t : State), c.wf = true →
    runTicks n (State.ofCfg c bits rest) = .next t → t.tick = n ∧ t.mixer.div = n % c.D

/-- With `tx_ready` = 1 at tick 3 the first byte is emitted at tick 4, not before, and it is round 0's
(from the spec's initial state, decision D3, and the wrap policy, D8). -/
def Obligations.FirstByteAtTickFour : Prop :=
  ∀ (c : Cfg) (bits : List Bool) (rest : Option Bool), c.wf = true → c.triPolicy = .wrap →
    (State.ofCfg c bits rest).txReadyAfter 3 = true →
    emittedIn 5 (State.ofCfg c bits rest) = [(4, c.roundByte 0)]

/-- In the composed block COMPUTE lasts at most three ticks, its latching tick among them: within two
ticks every `rdy` is 1, and the tick after that the mixer is in SENDACK with the sum latched. -/
def Obligations.ComputeLastsAtMostThreeTicks : Prop :=
  ∀ s : State, Inv s → s.consts.triPolicy = .wrap → s.mixer.mstate = .compute →
    ∃ n ≤ 2, ∃ t u, runTicks n s = .next t ∧ step t = .next u ∧
      (∀ o ∈ t.oscs, o.rdy = true) ∧ t.mixer.mstate = .compute ∧ u.mixer.mstate = .sendack ∧
      u.mixer.mixed = (t.oscs.map Osc.sample).sum ∧
      ∀ j < n, ∀ v, runTicks j s = .next v →
        v.mixer.mstate = .compute ∧ ¬ ∀ o ∈ v.oscs, o.rdy = true

/-- Oscillators are released only after the sum is latched: if the mixer latches in tick t, then at
t + 1 it is in SENDACK with `ack` = 0, at t + 2 `ack` is 1 for the first time, every oscillator is in
READY up to t + 2, and no sample has changed up to t + 3. -/
def Obligations.ReleaseAfterLatch : Prop :=
  ∀ s : State, Inv s → s.consts.triPolicy = .wrap → s.mixer.mstate = .compute →
    (∀ o ∈ s.oscs, o.rdy = true) →
    ∃ s1 s2 s3, step s = .next s1 ∧ step s1 = .next s2 ∧ step s2 = .next s3 ∧
      s1.mixer.mstate = .sendack ∧ s1.mixer.mixed = (s.oscs.map Osc.sample).sum ∧
      s1.mixer.ack = false ∧ s2.mixer.ack = true ∧
      (∀ o ∈ s1.oscs, o.ostate = .ready) ∧ (∀ o ∈ s2.oscs, o.ostate = .ready) ∧
      s1.oscs.map Osc.sample = s.oscs.map Osc.sample ∧
      s2.oscs.map Osc.sample = s.oscs.map Osc.sample ∧
      s3.oscs.map Osc.sample = s.oscs.map Osc.sample

/-- The mixer enters COMPUTE only from IDLE in a tick that is a multiple of D, so a COMPUTE phase
starts at a tick t with t mod D = 1 mod D, and two of them are a multiple of D apart. The test of the
snapshot's `div` is decision D6. -/
def Obligations.ComputeStartsAtPeriodBoundary : Prop :=
  (∀ s t : State, Inv s → step s = .next t → s.mixer.mstate ≠ .compute →
    t.mixer.mstate = .compute →
    s.mixer.mstate = .idle ∧ s.tick % s.consts.D = 0 ∧ t.tick % s.consts.D = 1 % s.consts.D) ∧
  ∀ (s t t' u u' : State) (m n : Nat), Inv s → m ≤ n →
    runTicks m s = .next t → step t = .next t' → t.mixer.mstate = .idle →
    t'.mixer.mstate = .compute →
    runTicks n s = .next u → step u = .next u' → u.mixer.mstate = .idle →
    u'.mixer.mstate = .compute →
    s.consts.D ∣ n - m

/-- P3 over whole runs: for every legal configuration, every input stream and every number of ticks,
the emitted bytes are, in order, the bytes of rounds 0, 1, 2, ...: the k-th is the narrowed sum of
every voice's sample at phase k mod period. (The initial state is decision D3, the wrap policy
D8.) -/
def Obligations.EmittedBytesAreRoundBytes : Prop :=
  ∀ (c : Cfg) (bits : List Bool) (rest : Option Bool) (n : Nat), c.wf = true →
    c.triPolicy = .wrap →
    (emittedIn n (State.ofCfg c bits rest)).map Prod.snd =
      (List.range (emittedIn n (State.ofCfg c bits rest)).length).map c.roundByte

/-- Two successive emitted bytes are at least 4 ticks apart. -/
def Obligations.BytesAtLeastFourTicksApart : Prop :=
  ∀ s : State, Inv s → s.mixer.txAccept = true → ∀ (n : Nat) (t : State), 1 ≤ n → n ≤ 3 →
    runTicks n s = .next t → t.mixer.txAccept = false

/-- With a transport that is always ready, on whatever stream says so, the byte ticks are 4 and then
k*D + 3 for k = 1, 2, ... if D >= 6, and k*5 + 4 for k = 0, 1, ... if D = 5; for every D two bytes are
at least 5 ticks apart. (The initial state is decision D3, the test of `div` D6.) -/
def Obligations.AlwaysReadyByteTicks : Prop :=
  ∀ (c : Cfg) (bits : List Bool) (rest : Option Bool), c.wf = true → c.triPolicy = .wrap →
    (∀ n, (State.ofCfg c bits rest).txReadyAfter n = true) →
    (6 ≤ c.D → ∀ (n : Nat) (t : State), runTicks n (State.ofCfg c bits rest) = .next t →
      (t.mixer.txAccept = true ↔ n = 4 ∨ ∃ k ≥ 1, n = k * c.D + 3)) ∧
    (c.D = 5 → ∀ (n : Nat) (t : State), runTicks n (State.ofCfg c bits rest) = .next t →
      (t.mixer.txAccept = true ↔ ∃ k, n = k * 5 + 4)) ∧
    ∀ (m n : Nat) (t u : State), m < n →
      runTicks m (State.ofCfg c bits rest) = .next t → t.mixer.txAccept = true →
      runTicks n (State.ofCfg c bits rest) = .next u → u.mixer.txAccept = true → m + 5 ≤ n

/-- A transport that is never ready again, on whatever stream says so, holds the mixer in SENDACK for ever: no byte is emitted, the
latched sum stands, `ack` is 1 from the next tick on, and within three ticks every oscillator waits in
WAITING with no sample offered. -/
def Obligations.StalledTransportHoldsSendack : Prop :=
  ∀ s : State, Inv s → s.consts.triPolicy = .wrap → s.mixer.mstate = .sendack →
    (∀ n, s.txReadyAfter n = false) → ∀ n : Nat, ∃ t, runTicks n s = .next t ∧
      t.mixer.mstate = .sendack ∧ t.mixer.txAccept = false ∧ t.mixer.mixed = s.mixer.mixed ∧
      t.mixer.outByte = s.mixer.outByte ∧ (1 ≤ n → t.mixer.ack = true) ∧
      (3 ≤ n → ∀ o ∈ t.oscs, o.ostate = .waiting ∧ o.rdy = false)

/-- P4: if a harness holds some `rdy[i]` at 0 in every snapshot, the mixer never leaves COMPUTE and no
byte is emitted. The harness is not a behaviour of the block (log 14). -/
def Obligations.ForcedVoiceStallsMixer : Prop :=
  ∀ (s : State) (i : Nat), Inv s → s.consts.triPolicy = .wrap → i < s.N →
    s.mixer.mstate = .compute → ∀ n : Nat, ∃ t, runForced i n s = .next t ∧
      t.mixer.mstate = .compute ∧ t.mixer.txAccept = false ∧ t.mixer.outByte = s.mixer.outByte

/-- If `tx_ready` is 1 on infinitely many ticks, bytes are emitted on infinitely many ticks. -/
def Obligations.ReadyTransportGetsBytesForever : Prop :=
  ∀ s : State, Inv s → s.consts.triPolicy = .wrap →
    (∀ n, ∃ m ≥ n, s.txReadyAfter m = true) →
    ∀ n, ∃ m ≥ n, ∃ t, runTicks m s = .next t ∧ t.mixer.txAccept = true

/-! ## Configuration -/

/-- R180: a request either fails the checks, and then nothing is built, or passes all of them, and then
the built state is the construction state of a legal configuration. -/
def Obligations.BuildChecksEverythingFirst : Prop :=
  ∀ (ps : Profiles) (mode : RoundMode) (q : Request) (bits : List Bool) (rest : Option Bool),
    (∃ e, configure ps mode q = .error e ∧ build ps mode q bits rest = .error e) ∨
    (∃ c, configure ps mode q = .ok c ∧ c.wf = true ∧
      build ps mode q bits rest = .ok (State.ofCfg c bits rest) ∧
      Inv (State.ofCfg c bits rest))

/-- Bring-up derives and then checks: with an unknown profile a request is refused; with a known one its
configuration is the check of the divisor and the periods derived from its rates and frequencies,
with W, P, the kinds and the policy as asked for; and the block is built exactly when those integers
are legal, in the state at tick 0 of that configuration. The place of the rounding is decision D11,
the bounds D9 and D22. -/
def Obligations.BringUpDerivesThenChecks : Prop :=
  ∀ (ps : Profiles) (mode : RoundMode) (q : Request) (bits : List Bool) (rest : Option Bool),
    ((¬ ∃ n clk, q.profile = some n ∧ List.lookup n ps = some clk) →
      ∃ e, e.code = .unknownProfile ∧ configure ps mode q = .error e ∧
        build ps mode q bits rest = .error e) ∧
    ∀ (n : String) (clk : Rate), q.profile = some n → List.lookup n ps = some clk →
      configure ps mode q = checkConfig ps q.profile
        { W := q.W, P := q.P, D := deriveDivisor mode clk q.sampleRate
          voices := q.voices.map fun v =>
            { kind := v.kind, period := derivePeriod mode q.sampleRate v.frequency }
          triPolicy := q.triPolicy } ∧
      ∀ s : State, build ps mode q bits rest = .ok s ↔
        (1 ≤ deriveDivisor mode clk q.sampleRate ∧ 1 ≤ q.P ∧ q.P < q.W ∧ 1 ≤ q.voices.length ∧
          ∀ v ∈ q.voices, (v.kind = .square ∨ v.kind = .triangle) ∧
            ∃ p, derivePeriod mode q.sampleRate v.frequency = some p ∧ 1 ≤ p ∧
              (v.kind = .triangle → 2 ≤ p)) ∧
        s = State.ofCfg
          { W := q.W.toNat, P := q.P.toNat, D := (deriveDivisor mode clk q.sampleRate).toNat
            voices := q.voices.map fun v =>
              { kind := v.kind
                period := ((derivePeriod mode q.sampleRate v.frequency).getD 0).toNat }
            triPolicy := q.triPolicy } bits rest

/-- The checks accept exactly the legal configurations of a known profile, and leave the parameters as
they were given. The bounds on P and W are decision D22, the triangle's period D9. -/
def Obligations.CheckAcceptsExactlyLegal : Prop :=
  ∀ (ps : Profiles) (name : Option String) (r : RawCfg) (c : Cfg),
    checkConfig ps name r = .ok c ↔
      (∃ n clk, name = some n ∧ List.lookup n ps = some clk) ∧ c = r.toCfg ∧
      1 ≤ r.D ∧ 1 ≤ r.P ∧ r.P < r.W ∧ 1 ≤ r.voices.length ∧
      ∀ v ∈ r.voices, (v.kind = .square ∨ v.kind = .triangle) ∧
        ∃ p, v.period = some p ∧ 1 ≤ p ∧ (v.kind = .triangle → 2 ≤ p)

/-- The first failing check in the order of the error table is the one reported; an error of code 2 or 4
names the frequency, and one of code 7 the kind, of the lowest failing oscillator; one of code 3 names
the divisor. The codes and their order are the spec's decision D12. -/
def Obligations.FirstFailingCheckIsReported : Prop :=
  ∀ (ps : Profiles) (name : Option String) (r : RawCfg) (e : ConfigError),
    checkConfig ps name r = .error e →
    let known : Prop := ∃ n clk, name = some n ∧ List.lookup n ps = some clk
    let noBadPeriod : Prop := ∀ v ∈ r.voices, v.badPeriod = false
    let noBadTri : Prop := ∀ v ∈ r.voices, v.badTriPeriod = false
    let widths : Prop := 1 ≤ r.P ∧ r.P < r.W
    (e.code = .unknownProfile ↔ ¬ known) ∧
    (e.code = .badPeriod ↔ known ∧ ¬ noBadPeriod) ∧
    (e.code = .badDivisor ↔ known ∧ noBadPeriod ∧ r.D ≤ 0) ∧
    (e.code = .triPeriod ↔ known ∧ noBadPeriod ∧ 0 < r.D ∧ ¬ noBadTri) ∧
    (e.code = .badCount ↔ known ∧ noBadPeriod ∧ 0 < r.D ∧ noBadTri ∧ r.voices.length < 1) ∧
    (e.code = .badWidth ↔
      known ∧ noBadPeriod ∧ 0 < r.D ∧ noBadTri ∧ 1 ≤ r.voices.length ∧ ¬ widths) ∧
    (e.code = .badKind ↔
      known ∧ noBadPeriod ∧ 0 < r.D ∧ noBadTri ∧ 1 ≤ r.voices.length ∧ widths) ∧
    (e.code = .badDivisor → e.parameter = .divisor) ∧
    (e.code = .badPeriod ∨ e.code = .triPeriod → ∃ i, e.parameter = .frequency i) ∧
    (e.code = .badKind → ∃ i, e.parameter = .kind i) ∧
    (∀ i, e = ⟨.badPeriod, .frequency i⟩ → 1 ≤ i ∧
      (∃ v, r.voices[i - 1]? = some v ∧ v.badPeriod = true) ∧
      ∀ j v, j < i - 1 → r.voices[j]? = some v → v.badPeriod = false) ∧
    (∀ i, e = ⟨.triPeriod, .frequency i⟩ → 1 ≤ i ∧
      (∃ v, r.voices[i - 1]? = some v ∧ v.badTriPeriod = true) ∧
      ∀ j v, j < i - 1 → r.voices[j]? = some v → v.badTriPeriod = false) ∧
    (∀ i, e = ⟨.badKind, .kind i⟩ → 1 ≤ i ∧
      (∃ v, r.voices[i - 1]? = some v ∧ v.badKind = true) ∧
      ∀ j v, j < i - 1 → r.voices[j]? = some v → v.badKind = false)

/-- The rounded ratio n / d is a nearest integer to it. A period is derived exactly when the sample rate
and the frequency are positive, and is then a nearest integer to sample_rate / frequency; a divisor
derived from positive rates is a nearest integer to system_clock_rate / sample_rate, and is otherwise 0
(the model's choice, log 15). Each depends on ROUND_MODE only at an exact tie. The place of the rounding
is decision D11. -/
def Obligations.RoundingIsNearest : Prop :=
  (∀ (mode mode' : RoundMode) (n d : Int), 0 < d →
    2 * (roundRatio mode n d * d - n) ≤ d ∧ 2 * (n - roundRatio mode n d * d) ≤ d ∧
    ((∀ k : Int, 2 * n ≠ (2 * k + 1) * d) → roundRatio mode n d = roundRatio mode' n d)) ∧
  (∀ (mode mode' : RoundMode) (R f : Rate),
    (derivePeriod mode R f = none ↔ ¬ (R.positive = true ∧ f.positive = true)) ∧
    (R.positive = true → f.positive = true →
      ∃ p, derivePeriod mode R f = some p ∧ |(p : ℚ) - R.value / f.value| ≤ 1 / 2 ∧
        ((∀ k : Int, R.value / f.value ≠ k + 1 / 2) → derivePeriod mode' R f = some p))) ∧
  ∀ (mode mode' : RoundMode) (clk R : Rate),
    (¬ (clk.positive = true ∧ R.positive = true) → deriveDivisor mode clk R = 0) ∧
    (clk.positive = true → R.positive = true →
      |(deriveDivisor mode clk R : ℚ) - clk.value / R.value| ≤ 1 / 2 ∧
        ((∀ k : Int, clk.value / R.value ≠ k + 1 / 2) →
          deriveDivisor mode' clk R = deriveDivisor mode clk R))

/-- A program of the notation has exactly one `cfg` line, the first, which gives W, P and D (the divisor
derived from the rates where the line gives rates); its voices are its `osc` lines in order, with the
derived period where a line gives a frequency; its stream and its tick are those of its `tx_ready` and
`run` lines; and its configuration is legal. Every legal configuration written in the notation is
accepted and read back. The notation is the spec's own decision D18, the rounding D11; a stream's
shapes and the free order of the lines after the first are the model's choice (log 16). -/
def Obligations.ProgramsAreLegal : Prop :=
  (∀ (mode : RoundMode) (ls : List Directive) (p : BlockProgram), elaborate mode ls = .ok p →
    p.cfg.wf = true ∧ p.cfg.triPolicy = .wrap ∧
    (∃ l rest, ls = l :: rest ∧
      ((∃ W P D, l = .cfg W P D ∧ (p.cfg.W : Int) = W ∧ (p.cfg.P : Int) = P ∧
          (p.cfg.D : Int) = D) ∨
        ∃ W P clk R, l = .cfgRates W P clk R ∧ (p.cfg.W : Int) = W ∧ (p.cfg.P : Int) = P ∧
          (p.cfg.D : Int) = deriveDivisor mode clk R) ∧
      (∀ W P D, .cfg W P D ∉ rest) ∧ ∀ W P clk R, .cfgRates W P clk R ∉ rest) ∧
    (p.cfg.voices.map fun v => (v.kind, some (v.period : Int))) = (ls.filterMap fun l =>
      match l with
      | .osc kind period => some (kind, some period)
      | .oscRate kind f R => some (kind, derivePeriod mode R f)
      | _ => none) ∧
    (∀ pat, .txReady pat ∈ ls → p.bits = pat.expand ∧ p.rest = pat.rest) ∧
    ∀ T, .run T ∈ ls → p.ticks = T) ∧
  ∀ (mode : RoundMode) (c : Cfg) (pat : TxPattern) (T : Nat), c.wf = true →
    c.triPolicy = .wrap → (pat.star = true → pat.expand ≠ []) →
    elaborate mode (.cfg c.W c.P c.D :: (c.voices.map fun v => .osc v.kind v.period) ++
      [.txReady pat, .run T]) = .ok ⟨c, pat.expand, pat.rest, T⟩
end

