-- ==== Sys2Proof/Laws/Arith.lean ====
section
/-! SUPPORT. The plain arithmetic of the shared operations. -/

namespace Sys2Proof.Machine

theorem maxSample_lt (W : Nat) : maxSample W < 2 ^ W := by
  have h : 0 < 2 ^ W := by positivity
  unfold maxSample
  omega

theorem truncTo_lt (W : Nat) (v : Int) : truncTo W v < 2 ^ W := by
  have hp : (0 : Int) < ((2 ^ W : Nat) : Int) := by positivity
  have h1 := Int.emod_nonneg v hp.ne'
  have h2 := Int.emod_lt_of_pos v hp
  unfold truncTo
  omega

theorem squareSample_lt (W c p : Nat) : squareSample W c p < 2 ^ W := by
  have h := maxSample_lt W
  unfold squareSample
  split <;> omega

theorem triangleSample_lt (W c p : Nat) : triangleSample W c p < 2 ^ W := truncTo_lt W _

@[simp] theorem nextCount_of_eq {c p : Nat} (h : c + 1 = p) : nextCount c p = 0 := by
  simp [nextCount, h]

@[simp] theorem nextCount_of_ne {c p : Nat} (h : c + 1 ≠ p) : nextCount c p = c + 1 := by
  simp [nextCount, h]

end Sys2Proof.Machine
end

