-- ==== Sys2Proof/Laws/Configure.lean ====
section
/-! SUPPORT. What the searches and the profile lookup of the configuration check can answer. -/

namespace Sys2Proof.Machine

/-- No voice is reported exactly when none has the property. -/
theorem firstVoice_eq_none {bad : RawVoice → Bool} {i : Nat} {vs : List RawVoice} :
    firstVoice bad i vs = none ↔ ∀ v ∈ vs, bad v = false := by
  induction vs generalizing i with
  | nil => simp [firstVoice]
  | cons v vs ih =>
    cases h : bad v <;> simp [firstVoice, h, ih]

/-- A reported voice has the property, and none before it has. -/
theorem firstVoice_eq_some {bad : RawVoice → Bool} {i k : Nat} {vs : List RawVoice}
    (h : firstVoice bad i vs = some k) :
    ∃ j v, k = i + j ∧ vs[j]? = some v ∧ bad v = true ∧
      ∀ l w, l < j → vs[l]? = some w → bad w = false := by
  induction vs generalizing i with
  | nil => exact nomatch h
  | cons v vs ih =>
    cases hv : bad v with
    | true =>
      have hk : i = k := by simpa [firstVoice, hv] using h
      exact ⟨0, v, by omega, rfl, hv, fun l w hl => absurd hl (Nat.not_lt_zero l)⟩
    | false =>
      have hr : firstVoice bad (i + 1) vs = some k := by simpa [firstVoice, hv] using h
      obtain ⟨j, w, hk, hw, hb, hlow⟩ := ih hr
      refine ⟨j + 1, w, by omega, by simpa using hw, hb, fun l x hl hx => ?_⟩
      cases l with
      | zero =>
        cases hx
        exact hv
      | succ l => exact hlow l x (by omega) (by simpa using hx)

/-- The profile check answers the clock of a known profile, and nothing else. -/
theorem checkProfile_eq_ok {ps : Profiles} {name : Option String} {clk : Rate} :
    checkProfile ps name = .ok clk ↔ ∃ n, name = some n ∧ List.lookup n ps = some clk := by
  cases name with
  | none => simp [checkProfile]
  | some n => cases h : List.lookup n ps <;> simp [checkProfile, h]

end Sys2Proof.Machine
end

