-- ==== Sys2Proof/Laws/Select.lean ====
section
/-! SUPPORT. Which operation an agent's registers select: the decoder, evaluated once for every
selector an agent can compose. -/

namespace Sys2Proof.Machine

theorem decode_osc_square (o : Osc) (h : o.voice.kind = .square) :
    decode o.selector = match o.ostate with
      | .compute => .ok .oscComputeSq
      | .waiting => .ok .oscWaiting
      | .ready => .ok .oscReady := by
  unfold Osc.selector
  rw [h]
  cases o.ostate <;> rfl

theorem decode_osc_triangle (o : Osc) (h : o.voice.kind = .triangle) :
    decode o.selector = match o.ostate with
      | .compute => .ok .oscComputeTri
      | .waiting => .ok .oscWaiting
      | .ready => .ok .oscReady := by
  unfold Osc.selector
  rw [h]
  cases o.ostate <;> rfl

theorem decode_osc_reserved (o : Osc) (h : o.voice.kind = .sine ∨ o.voice.kind = .reserved) :
    decode o.selector = .error .reservedKind := by
  unfold Osc.selector
  rcases h with h | h <;> rw [h] <;> cases o.ostate <;> rfl

theorem decode_mixer (m : Mixer) :
    decode m.selector = match m.mstate with
      | .compute => .ok .mixCompute
      | .sendack => .ok .mixSendack
      | .idle => .ok .mixIdle := by
  unfold Mixer.selector
  cases m.mstate <;> rfl

@[simp] theorem decode_divSelector : decode divSelector = .ok .divTick := rfl

theorem Osc.selects_oscComputeSq (o : Osc) :
    o.selects .oscComputeSq = true ↔ o.voice.kind = .square ∧ o.ostate = .compute := by
  unfold Osc.selects Osc.selector
  cases o.voice.kind <;> cases o.ostate <;> decide

theorem Osc.selects_oscComputeTri (o : Osc) :
    o.selects .oscComputeTri = true ↔ o.voice.kind = .triangle ∧ o.ostate = .compute := by
  unfold Osc.selects Osc.selector
  cases o.voice.kind <;> cases o.ostate <;> decide

theorem Osc.selects_oscWaiting (o : Osc) :
    o.selects .oscWaiting = true ↔
      (o.voice.kind = .square ∨ o.voice.kind = .triangle) ∧ o.ostate = .waiting := by
  unfold Osc.selects Osc.selector
  cases o.voice.kind <;> cases o.ostate <;> decide

theorem Osc.selects_oscReady (o : Osc) :
    o.selects .oscReady = true ↔
      (o.voice.kind = .square ∨ o.voice.kind = .triangle) ∧ o.ostate = .ready := by
  unfold Osc.selects Osc.selector
  cases o.voice.kind <;> cases o.ostate <;> decide

theorem Mixer.selects_mixCompute (m : Mixer) : m.selects .mixCompute = true ↔ m.mstate = .compute := by
  unfold Mixer.selects Mixer.selector
  cases m.mstate <;> decide

theorem Mixer.selects_mixSendack (m : Mixer) : m.selects .mixSendack = true ↔ m.mstate = .sendack := by
  unfold Mixer.selects Mixer.selector
  cases m.mstate <;> decide

theorem Mixer.selects_mixIdle (m : Mixer) : m.selects .mixIdle = true ↔ m.mstate = .idle := by
  unfold Mixer.selects Mixer.selector
  cases m.mstate <;> decide

end Sys2Proof.Machine
end

