-- ==== Sys2Proof/Laws/State.lean ====
section
/-! SUPPORT. One lemma per field per update of the state records, each true by unfolding, so that no
later proof opens a record update. -/

namespace Sys2Proof.Machine

@[simp] theorem State.setOscs_consts (s : State) (os : List Osc) : (s.setOscs os).consts = s.consts := rfl
@[simp] theorem State.setOscs_oscs (s : State) (os : List Osc) : (s.setOscs os).oscs = os := rfl
@[simp] theorem State.setOscs_mixer (s : State) (os : List Osc) : (s.setOscs os).mixer = s.mixer := rfl
@[simp] theorem State.setOscs_tick (s : State) (os : List Osc) : (s.setOscs os).tick = s.tick := rfl
@[simp] theorem State.setOscs_txBits (s : State) (os : List Osc) : (s.setOscs os).txBits = s.txBits := rfl
@[simp] theorem State.setOscs_txRest (s : State) (os : List Osc) : (s.setOscs os).txRest = s.txRest := rfl

@[simp] theorem State.setMixer_consts (s : State) (m : Mixer) : (s.setMixer m).consts = s.consts := rfl
@[simp] theorem State.setMixer_oscs (s : State) (m : Mixer) : (s.setMixer m).oscs = s.oscs := rfl
@[simp] theorem State.setMixer_mixer (s : State) (m : Mixer) : (s.setMixer m).mixer = m := rfl
@[simp] theorem State.setMixer_tick (s : State) (m : Mixer) : (s.setMixer m).tick = s.tick := rfl
@[simp] theorem State.setMixer_txBits (s : State) (m : Mixer) : (s.setMixer m).txBits = s.txBits := rfl
@[simp] theorem State.setMixer_txRest (s : State) (m : Mixer) : (s.setMixer m).txRest = s.txRest := rfl

@[simp] theorem State.commit_consts (s : State) (os : List Osc) (m : Mixer) (d : Nat) :
    (s.commit os m d).consts = s.consts := rfl
@[simp] theorem State.commit_oscs (s : State) (os : List Osc) (m : Mixer) (d : Nat) :
    (s.commit os m d).oscs = os := rfl
@[simp] theorem State.commit_mixer (s : State) (os : List Osc) (m : Mixer) (d : Nat) :
    (s.commit os m d).mixer = m.setDiv d := rfl
@[simp] theorem State.commit_tick (s : State) (os : List Osc) (m : Mixer) (d : Nat) :
    (s.commit os m d).tick = s.tick + 1 := rfl
@[simp] theorem State.commit_txBits (s : State) (os : List Osc) (m : Mixer) (d : Nat) :
    (s.commit os m d).txBits = s.txBits.tail := rfl
@[simp] theorem State.commit_txRest (s : State) (os : List Osc) (m : Mixer) (d : Nat) :
    (s.commit os m d).txRest = s.txRest := rfl

@[simp] theorem Osc.setRdy_voice (o : Osc) (b : Bool) : (o.setRdy b).voice = o.voice := rfl
@[simp] theorem Osc.setRdy_ostate (o : Osc) (b : Bool) : (o.setRdy b).ostate = o.ostate := rfl
@[simp] theorem Osc.setRdy_current (o : Osc) (b : Bool) : (o.setRdy b).current = o.current := rfl
@[simp] theorem Osc.setRdy_sample (o : Osc) (b : Bool) : (o.setRdy b).sample = o.sample := rfl
@[simp] theorem Osc.setRdy_rdy (o : Osc) (b : Bool) : (o.setRdy b).rdy = b := rfl

@[simp] theorem Osc.computed_voice (o : Osc) (v : Nat) : (o.computed v).voice = o.voice := rfl
@[simp] theorem Osc.computed_ostate (o : Osc) (v : Nat) : (o.computed v).ostate = .waiting := rfl
@[simp] theorem Osc.computed_current (o : Osc) (v : Nat) :
    (o.computed v).current = nextCount o.current o.voice.period := rfl
@[simp] theorem Osc.computed_sample (o : Osc) (v : Nat) : (o.computed v).sample = v := rfl
@[simp] theorem Osc.computed_rdy (o : Osc) (v : Nat) : (o.computed v).rdy = o.rdy := rfl

@[simp] theorem Mixer.setAck_mstate (m : Mixer) (b : Bool) : (m.setAck b).mstate = m.mstate := rfl
@[simp] theorem Mixer.setAck_div (m : Mixer) (b : Bool) : (m.setAck b).div = m.div := rfl
@[simp] theorem Mixer.setAck_mixed (m : Mixer) (b : Bool) : (m.setAck b).mixed = m.mixed := rfl
@[simp] theorem Mixer.setAck_outByte (m : Mixer) (b : Bool) : (m.setAck b).outByte = m.outByte := rfl
@[simp] theorem Mixer.setAck_ack (m : Mixer) (b : Bool) : (m.setAck b).ack = b := rfl
@[simp] theorem Mixer.setAck_txAccept (m : Mixer) (b : Bool) : (m.setAck b).txAccept = m.txAccept := rfl

@[simp] theorem Mixer.setTxAccept_mstate (m : Mixer) (b : Bool) : (m.setTxAccept b).mstate = m.mstate := rfl
@[simp] theorem Mixer.setTxAccept_div (m : Mixer) (b : Bool) : (m.setTxAccept b).div = m.div := rfl
@[simp] theorem Mixer.setTxAccept_mixed (m : Mixer) (b : Bool) : (m.setTxAccept b).mixed = m.mixed := rfl
@[simp] theorem Mixer.setTxAccept_outByte (m : Mixer) (b : Bool) : (m.setTxAccept b).outByte = m.outByte := rfl
@[simp] theorem Mixer.setTxAccept_ack (m : Mixer) (b : Bool) : (m.setTxAccept b).ack = m.ack := rfl
@[simp] theorem Mixer.setTxAccept_txAccept (m : Mixer) (b : Bool) : (m.setTxAccept b).txAccept = b := rfl

@[simp] theorem Mixer.setDiv_mstate (m : Mixer) (d : Nat) : (m.setDiv d).mstate = m.mstate := rfl
@[simp] theorem Mixer.setDiv_div (m : Mixer) (d : Nat) : (m.setDiv d).div = d := rfl
@[simp] theorem Mixer.setDiv_mixed (m : Mixer) (d : Nat) : (m.setDiv d).mixed = m.mixed := rfl
@[simp] theorem Mixer.setDiv_outByte (m : Mixer) (d : Nat) : (m.setDiv d).outByte = m.outByte := rfl
@[simp] theorem Mixer.setDiv_ack (m : Mixer) (d : Nat) : (m.setDiv d).ack = m.ack := rfl
@[simp] theorem Mixer.setDiv_txAccept (m : Mixer) (d : Nat) : (m.setDiv d).txAccept = m.txAccept := rfl

@[simp] theorem Osc.initial_voice (v : Voice) : (Osc.initial v).voice = v := rfl

@[simp] theorem State.cfg_W (s : State) : s.cfg.W = s.consts.W := rfl
@[simp] theorem State.cfg_P (s : State) : s.cfg.P = s.consts.P := rfl
@[simp] theorem State.cfg_D (s : State) : s.cfg.D = s.consts.D := rfl
@[simp] theorem State.cfg_voices (s : State) : s.cfg.voices = s.oscs.map Osc.voice := rfl
@[simp] theorem State.cfg_triPolicy (s : State) : s.cfg.triPolicy = s.consts.triPolicy := rfl
@[simp] theorem State.cfg_N (s : State) : s.cfg.N = s.N := by simp [Cfg.N, State.N]

end Sys2Proof.Machine
end

