-- ==== Sys2Proof/Laws/Ops.lean ====
section
/-! SUPPORT. For each shared operation one lemma that says what it can do: if it answers a next
value, then which. Proofs cite these instead of unfolding the operations. -/

namespace Sys2Proof.Machine

variable {α β : Type}

@[simp] theorem bindNext_next (a : α) (k : α → Out β) : bindNext (.next a) k = k a := rfl
@[simp] theorem bindNext_fault (e : Fault) (k : α → Out β) : bindNext (.fault e) k = .fault e := rfl
@[simp] theorem bindNext_refused (e : Refusal) (k : α → Out β) :
    bindNext (.refused e) k = .refused e := rfl

theorem bindNext_eq_next {r : Out α} {k : α → Out β} {b : β} (h : bindNext r k = .next b) :
    ∃ a, r = .next a ∧ k a = .next b := by
  cases r with
  | next a => exact ⟨a, rfl, h⟩
  | fault e => exact nomatch h
  | refused e => exact nomatch h

/-- An operation on the oscillators that answers acted on each of them. -/
theorem mapOscs_eq_next {f : Osc → Out Osc} {os os' : List Osc} (h : mapOscs f os = .next os') :
    List.Forall₂ (fun o o' => f o = .next o') os os' := by
  induction os generalizing os' with
  | nil =>
    cases h
    exact .nil
  | cons o os ih =>
    obtain ⟨o', ho, h⟩ := bindNext_eq_next h
    obtain ⟨rest, hr, h⟩ := bindNext_eq_next h
    cases h
    exact .cons ho (ih hr)

/-- An operation that answers on every oscillator is a map. -/
theorem mapOscs_map {f : Osc → Out Osc} {g : Osc → Osc} {os : List Osc}
    (h : ∀ o ∈ os, f o = .next (g o)) : mapOscs f os = .next (os.map g) := by
  induction os with
  | nil => rfl
  | cons o os ih =>
    have ho : f o = .next (g o) := h o (by simp)
    have hr : mapOscs f os = .next (os.map g) := ih fun p hp => h p (by simp [hp])
    simp [mapOscs, ho, hr]

/-- What an oscillator operation can do: nothing but the oscillators changes, and each is as `f` left
it if it selects the operation, else unchanged. -/
theorem performOsc_eq_next {sel : Osc → Bool} {f : Osc → Out Osc} {s t : State}
    (h : performOsc sel f s = .next t) :
    ∃ os, t = s.setOscs os ∧
      List.Forall₂ (fun o o' => (if sel o then f o else .next o) = .next o') s.oscs os := by
  obtain ⟨os, ho, h⟩ := bindNext_eq_next h
  cases h
  exact ⟨os, rfl, mapOscs_eq_next ho⟩

/-- An oscillator operation whose rule answers on every oscillator that selects it. -/
theorem performOsc_map {sel : Osc → Bool} {f : Osc → Out Osc} {g : Osc → Osc} {s : State}
    (h : ∀ o ∈ s.oscs, sel o = true → f o = .next (g o)) :
    performOsc sel f s = .next (s.setOscs (s.oscs.map fun o => if sel o then g o else o)) := by
  have hm : mapOscs (fun o => if sel o then f o else .next o) s.oscs =
      .next (s.oscs.map fun o => if sel o then g o else o) := by
    apply mapOscs_map
    intro o ho
    by_cases hs : sel o = true
    · simp [hs, h o ho hs]
    · simp [hs]
  simp [performOsc, hm]

/-- What a mixer operation can do: nothing but the mixer's registers changes, and those only if the
mixer selects it. -/
theorem performMix_eq_next {sel : Mixer → Bool} {f : Mixer → Out Mixer} {s t : State}
    (h : performMix sel f s = .next t) :
    (sel s.mixer = true ∧ ∃ m, f s.mixer = .next m ∧ t = s.setMixer m) ∨
      (sel s.mixer = false ∧ t = s) := by
  unfold performMix at h
  split at h
  · rename_i hs
    obtain ⟨m, hm, h⟩ := bindNext_eq_next h
    cases h
    exact .inl ⟨hs, m, hm, rfl⟩
  · rename_i hs
    cases h
    exact .inr ⟨by simpa using hs, rfl⟩

/-- A decoded selector runs its operation. -/
theorem runSelector_ok {sel : Selector} {i : Instr} (h : decode sel = .ok i) (s : State) :
    runSelector sel s = exec i s := by
  simp [runSelector, h]

/-- A reserved selector faults. -/
theorem runSelector_error {sel : Selector} {e : DecodeError} (h : decode sel = .error e) (s : State) :
    runSelector sel s = .fault (.reservedSelector sel) := by
  simp [runSelector, h]

/-- A selector that ran to a next state named an operation. -/
theorem runSelector_eq_next {sel : Selector} {s t : State} (h : runSelector sel s = .next t) :
    ∃ i, decode sel = .ok i ∧ exec i s = .next t := by
  unfold runSelector at h
  split at h
  · rename_i i hi
    exact ⟨i, hi, h⟩
  · exact nomatch h

/-- What a tick can do: every agent's operation answered, and the results are committed together. -/
theorem tick_eq_next {s t : State} (h : tick s = .next t) :
    ∃ os m d, gatherOscs s 0 s.oscs = .next os ∧ runSelector s.mixer.selector s = .next m ∧
      exec .divTick s = .next d ∧ t = s.commit os m.mixer d.mixer.div := by
  obtain ⟨os, ho, h⟩ := bindNext_eq_next h
  obtain ⟨m, hm, h⟩ := bindNext_eq_next h
  obtain ⟨d, hd, h⟩ := bindNext_eq_next h
  cases h
  exact ⟨os, m, d, ho, hm, by simpa [runSelector_ok decode_divSelector] using hd, rfl⟩

/-- What gathering can do: one result per oscillator, each taken from its own operation. -/
theorem gatherOscs_cons {s : State} {j : Nat} {o : Osc} {os os' : List Osc}
    (h : gatherOscs s j (o :: os) = .next os') :
    ∃ u rest, runSelector o.selector s = .next u ∧ gatherOscs s (j + 1) os = .next rest ∧
      os' = u.oscs.getD j o :: rest := by
  obtain ⟨u, hu, h⟩ := bindNext_eq_next h
  obtain ⟨rest, hr, h⟩ := bindNext_eq_next h
  cases h
  exact ⟨u, rest, hu, hr, rfl⟩

/-- Gathering answers one oscillator for each. -/
theorem gatherOscs_length {s : State} {os os' : List Osc} {j : Nat}
    (h : gatherOscs s j os = .next os') : os'.length = os.length := by
  induction os generalizing j os' with
  | nil =>
    cases h
    rfl
  | cons o os ih =>
    obtain ⟨u, rest, -, hr, rfl⟩ := gatherOscs_cons h
    simp [ih hr]

end Sys2Proof.Machine
end

