-- ==== Sys2Proof/Laws/Observe.lean ====
section
/-! SUPPORT. Runs of ticks: one lemma per shape of a run, so that no proof unfolds a run. -/

namespace Sys2Proof.Machine

@[simp] theorem runTicks_zero (s : State) : runTicks 0 s = .next s := rfl

theorem runTicks_succ (k : Nat) (s : State) :
    runTicks (k + 1) s = bindNext (step s) (runTicks k) := rfl

/-- A run that goes on from a step that answered. -/
theorem runTicks_of_step {s t : State} (h : step s = .next t) (k : Nat) :
    runTicks (k + 1) s = runTicks k t := by
  simp [runTicks_succ, h]

/-- A run of `m + n` ticks is a run of `m` and then one of `n`. -/
theorem runTicks_add (m n : Nat) (s : State) :
    runTicks (m + n) s = bindNext (runTicks m s) (runTicks n) := by
  induction m generalizing s with
  | zero => simp
  | succ m ih =>
    rw [Nat.succ_add, runTicks_succ, runTicks_succ]
    cases h : step s with
    | next t => simpa using ih t
    | fault e => rfl
    | refused e => rfl

/-- What every step of a run keeps, the run keeps. -/
theorem runTicks_keeps {P : State → Prop} (hP : ∀ s t, P s → step s = .next t → P t) {k : Nat}
    {s t : State} (hs : P s) (h : runTicks k s = .next t) : P t := by
  induction k generalizing s with
  | zero =>
    cases h
    exact hs
  | succ k ih =>
    obtain ⟨u, hu, h⟩ := bindNext_eq_next h
    exact ih (hP s u hs hu) h

@[simp] theorem emittedIn_zero (s : State) : emittedIn 0 s = [] := rfl

theorem emittedIn_of_step {s t : State} (h : step s = .next t) (k : Nat) :
    emittedIn (k + 1) s = s.emission.toList ++ emittedIn k t := by
  simp [emittedIn, h]

end Sys2Proof.Machine
end

