-- ==== Sys2Proof/Laws/PerInstr.lean ====
section
/-! SUPPORT. Families of statements about every operation as syntax: one lemma per constructor. -/

namespace Sys2Proof.Laws.RowMatches

/-- Every selector of the operation is matched by the operation's row of the map, and by no other
(R98). -/
def Statement (i : Instr) : Prop :=
  ∀ sel ∈ selectorsOf i, ∀ r ∈ opRows, r.matches sel = true ↔ r.op = i

theorem oscComputeSq : Statement .oscComputeSq := by unfold Statement; decide
theorem oscComputeTri : Statement .oscComputeTri := by unfold Statement; decide
theorem oscWaiting : Statement .oscWaiting := by unfold Statement; decide
theorem oscReady : Statement .oscReady := by unfold Statement; decide
theorem mixCompute : Statement .mixCompute := by unfold Statement; decide
theorem mixSendack : Statement .mixSendack := by unfold Statement; decide
theorem mixIdle : Statement .mixIdle := by unfold Statement; decide
theorem divTick : Statement .divTick := by unfold Statement; decide

end Sys2Proof.Laws.RowMatches
end

