-- ==== Sys2Proof/Tests/Slice0.lean ====
section
/-! SUPPORT. Small tests: selectors written out from the operation map, ill-formed configurations,
single operations and single ticks with results taken from 95_test_vectors.md, and for each statement
with hypotheses a concrete witness that meets them. -/

namespace Sys2Proof.Tests

open Sys2Proof Sys2Proof.Machine

/-! ## Helpers -/

def nextAnd (r : Out State) (p : State → Bool) : Bool :=
  match r with
  | .next t => p t
  | .fault _ => false
  | .refused _ => false

def oscAnd (r : Out Osc) (p : Osc → Bool) : Bool :=
  match r with
  | .next t => p t
  | .fault _ => false
  | .refused _ => false

def faultIs (r : Out State) (f : Fault) : Bool :=
  match r with
  | .next _ => false
  | .fault e => e == f
  | .refused _ => false

def errorCodeIs (r : Except ConfigError Cfg) (c : ErrorCode) : Bool :=
  match r with
  | .ok _ => false
  | .error e => e.code == c

/-- One oscillator record: kind, period, ostate, current, sample, rdy. -/
def osc (k : WaveKind) (p : Nat) (st : OState) (c v : Nat) (r : Bool) : Osc := ⟨⟨k, p⟩, st, c, v, r⟩

def k16 : Consts := ⟨16, 8, 8, .wrap⟩

/-- A state of PROG-3 (W = 8, P = 4, D = 7, TRIANGLE 4 and SQUARE 3) at tick `t`, both oscillators in
`st`, with the given phases and samples and the mixer's registers. -/
def p3 (st : OState) (c1 v1 c2 v2 : Nat) (m : Mixer) (t : Nat) (bits : List Bool)
    (rest : Option Bool) : State :=
  { consts := ⟨8, 4, 7, .wrap⟩
    oscs := [osc .triangle 4 st c1 v1 (st == .ready), osc .square 3 st c2 v2 (st == .ready)]
    mixer := m, tick := t, txBits := bits, txRest := rest }

def p3cfg : Cfg := { W := 8, P := 4, D := 7, voices := [⟨.triangle, 4⟩, ⟨.square, 3⟩] }

/-- PROG-3, tick 0. -/
def p3t0 : State := State.ofCfg p3cfg [] (some true)
/-- PROG-3, tick 2: the mixer is about to latch. -/
def p3t2 : State := p3 .ready 1 254 1 0 ⟨.compute, 2, 0, 0, false, false⟩ 2 [true, true] (some true)
/-- PROG-3, tick 3: the first SENDACK tick. -/
def p3t3 : State := p3 .ready 1 254 1 0 ⟨.sendack, 3, 254, 0, false, false⟩ 3 [true] (some true)
/-- PROG-3, tick 4: the byte 7 is handed over. -/
def p3t4 : State := p3 .ready 1 254 1 0 ⟨.idle, 4, 254, 7, true, true⟩ 4 [] (some true)
/-- PROG-3, tick 5: the oscillators have seen `ack`. -/
def p3t5 : State := p3 .compute 1 254 1 0 ⟨.idle, 5, 254, 7, false, false⟩ 5 [] (some true)
/-- PROG-3, tick 7: IDLE at a period boundary. -/
def p3t7 : State := p3 .ready 2 127 2 0 ⟨.idle, 0, 254, 7, false, false⟩ 7 [] (some true)
/-- PROG-3, tick 9, with a transport that is never ready again. -/
def p3stall : State :=
  p3 .ready 2 127 2 0 ⟨.sendack, 2, 127, 7, false, false⟩ 9 [] (some false)

/-! ## Decoding: words written out from the operation map (R98) -/

theorem test_decode_osc_compute_sq : decodeTableWord 8 0b00000000 = some .oscComputeSq := by decide
theorem test_decode_osc_compute_tri : decodeTableWord 8 0b00000100 = some .oscComputeTri := by decide
theorem test_decode_osc_waiting_sq : decodeTableWord 8 0b00000001 = some .oscWaiting := by decide
theorem test_decode_osc_waiting_tri : decodeTableWord 8 0b00000101 = some .oscWaiting := by decide
theorem test_decode_osc_ready_sq : decodeTableWord 8 0b00000010 = some .oscReady := by decide
theorem test_decode_osc_ready_tri : decodeTableWord 8 0b00000110 = some .oscReady := by decide
theorem test_decode_mix_compute : decodeTableWord 8 0b00010000 = some .mixCompute := by decide
theorem test_decode_mix_sendack : decodeTableWord 8 0b00010001 = some .mixSendack := by decide
theorem test_decode_mix_idle : decodeTableWord 8 0b00010010 = some .mixIdle := by decide
theorem test_decode_div_tick : decodeTableWord 8 0b00100000 = some .divTick := by decide

/-- One reserved selector for each bullet of R99, rejected by its name. -/
theorem test_decode_reserved_names :
    reservedBecause 0x30 = .reservedUnit ∧ reservedBecause 0x08 = .reservedKind ∧
    reservedBecause 0x13 = .reservedState ∧ reservedBecause 0x14 = .kindNotZero ∧
    reservedBecause 0x21 = .stateNotZero := by decide

theorem test_no_two_rows_overlap :
    opRows.Pairwise fun a b => ¬ (a.pattern &&& b.mask = b.pattern &&& a.mask) := by decide

/-! ## Well-formedness: one ill-formed configuration for each check -/

theorem test_wf_prog3 : p3cfg.wf = true := by decide
theorem test_wf_refuses_equal_widths : ({ p3cfg with P := 8 } : Cfg).widthsOk = false := by decide
theorem test_wf_refuses_zero_width : ({ p3cfg with P := 0 } : Cfg).widthsOk = false := by decide
theorem test_wf_refuses_no_voice : ({ p3cfg with voices := [] } : Cfg).countOk = false := by decide
theorem test_wf_refuses_zero_divisor : ({ p3cfg with D := 0 } : Cfg).divisorOk = false := by decide
theorem test_wf_refuses_sine : (⟨.sine, 4⟩ : Voice).kindOk = false := by decide
theorem test_wf_refuses_period_zero : (⟨.square, 0⟩ : Voice).periodOk = false := by decide
theorem test_wf_refuses_triangle_period_one : (⟨.triangle, 1⟩ : Voice).periodOk = false := by decide
theorem test_wf_accepts_square_period_one : (⟨.square, 1⟩ : Voice).periodOk = true := by decide

/-! ## V-CFG: the configuration errors (95, R187) -/

def raw (W P D : Int) (vs : List RawVoice) : RawCfg := { W := W, P := P, D := D, voices := vs }

theorem test_cfg_profile_first :
    errorCodeIs (checkConfig [] (some "nosuch") (raw 16 8 0 [⟨.square, some 4⟩])) .unknownProfile = true := by
  decide
theorem test_cfg_bad_divisor :
    firstError (raw 16 8 0 [⟨.square, some 4⟩]) = some ⟨.badDivisor, .divisor⟩ := by decide
theorem test_cfg_frequency_zero :
    derivePeriod (fun _ => true) ⟨1000, 1⟩ ⟨0, 1⟩ = none ∧
    firstError (raw 16 8 8 [⟨.square, none⟩]) = some ⟨.badPeriod, .frequency 1⟩ := by decide
theorem test_cfg_triangle_period_one :
    firstError (raw 16 8 8 [⟨.square, some 1⟩, ⟨.triangle, some 1⟩]) =
      some ⟨.triPeriod, .frequency 2⟩ := by decide
theorem test_cfg_triangle_period_two : firstError (raw 16 8 8 [⟨.triangle, some 2⟩]) = none := by decide
theorem test_cfg_no_voice : firstError (raw 16 8 8 []) = some ⟨.badCount, .count⟩ := by decide
theorem test_cfg_widths : firstError (raw 8 8 8 [⟨.square, some 4⟩]) = some ⟨.badWidth, .width⟩ := by decide
theorem test_cfg_sine : firstError (raw 16 8 8 [⟨.sine, some 4⟩]) = some ⟨.badKind, .kind 1⟩ := by decide
theorem test_cfg_period_before_triangle :
    firstError (raw 16 8 8 [⟨.square, some 0⟩, ⟨.triangle, some 1⟩]) =
      some ⟨.badPeriod, .frequency 1⟩ := by decide
/-- L1.6: 1000 / 250 gives period 4. -/
theorem test_derive_period : derivePeriod (fun _ => true) ⟨1000, 1⟩ ⟨250, 1⟩ = some 4 := by decide
/-- 1000 / 300 = 3.33.. rounds to 3, and 1000 / 270 = 3.70.. to 4 (R102). -/
theorem test_round_down_and_up :
    roundRatio (fun _ => true) 1000 300 = 3 ∧ roundRatio (fun _ => false) 1000 270 = 4 := by decide

/-! ## Sample, narrowing and counting functions (V-SQ, V-TRI, V-NARROW, V-DIV) -/

theorem test_square_period_five :
    (List.range 5).map (fun c => squareSample 16 c 5) = [0, 0, 0, 65535, 65535] := by decide
theorem test_triangle_period_five :
    (List.range 5).map (fun c => triangleSample 16 c 5) = [65534, 32767, 65535, 32766, 65534] := by
  decide
theorem test_triangle_raw_period_four :
    (List.range 4).map (fun c => triangleRaw 16 c 4) = [131070, 98303, 65535, 98302] := by decide
theorem test_narrow_three_voices : narrow 16 8 3 131070 = 170 := by decide
theorem test_narrow_one_bit : narrow 4 1 2 15 = 0 ∧ narrow 4 1 2 16 = 1 := by decide
theorem test_accumulator_width_five_voices : accWidth 16 5 = 19 := by decide

/-! ## Single operations (V-OSC, V-MIX, V-DIV) -/

/-- V-OSC: COMPUTE,3 -> WAITING,0,65535,0. -/
theorem test_osc_compute_sq :
    oscAnd (oscNext k16 false (osc .square 4 .compute 3 0 false))
      (· == osc .square 4 .waiting 0 65535 false) = true := by decide
/-- V-OSC: `ack` is ignored. -/
theorem test_osc_compute_sq_ignores_ack :
    oscAnd (oscNext k16 true (osc .square 4 .compute 2 0 false))
      (· == osc .square 4 .waiting 3 0 false) = true := by decide
/-- V-OSC: COMPUTE,5 -> WAITING,6,16382,0. -/
theorem test_osc_compute_tri :
    oscAnd (oscNext k16 false (osc .triangle 8 .compute 5 9 false))
      (· == osc .triangle 8 .waiting 6 16382 false) = true := by decide
/-- V-TRI: under the fault policy the first sample (c = 0) already faults. -/
theorem test_osc_compute_tri_fault_policy :
    faultIs (exec .oscComputeTri { p3t0 with consts := ⟨8, 4, 7, .fault⟩ }) .triangleOutOfRange =
      true := by decide
theorem test_osc_waiting_holds :
    oscAnd (oscNext k16 true (osc .square 4 .waiting 1 5 false))
      (· == osc .square 4 .waiting 1 5 false) = true := by decide
theorem test_osc_waiting_offers :
    oscAnd (oscNext k16 false (osc .triangle 4 .waiting 1 5 false))
      (· == osc .triangle 4 .ready 1 5 true) = true := by decide
theorem test_osc_ready_holds :
    oscAnd (oscNext k16 false (osc .square 4 .ready 1 5 true))
      (· == osc .square 4 .ready 1 5 true) = true := by decide
theorem test_osc_ready_released :
    oscAnd (oscNext k16 true (osc .triangle 4 .ready 1 5 true))
      (· == osc .triangle 4 .compute 1 5 false) = true := by decide

/-- V-MIX: not every oscillator ready. -/
theorem test_mix_compute_waits :
    nextAnd (exec .mixCompute { State.reset with
        oscs := [osc .square 4 .ready 1 5 true, osc .square 4 .waiting 1 6 false] })
      (fun t => t.mixer == State.reset.mixer) = true := by decide
/-- V-MIX: samples 65535 and 0. -/
theorem test_mix_compute_latches :
    nextAnd (exec .mixCompute { State.reset with
        oscs := [osc .square 4 .ready 1 65535 true, osc .square 4 .ready 1 0 true] })
      (fun t => t.mixer.mixed == 65535 && t.mixer.mstate == .sendack) = true := by decide
/-- V-MIX: `tx_ready` = 0. -/
theorem test_mix_sendack_waits :
    nextAnd (exec .mixSendack p3stall)
      (fun t => t.mixer == { p3stall.mixer with ack := true }) = true := by decide
/-- PROG-3, tick 3: (254 + 0) // 2 >> 4 = 7. -/
theorem test_mix_sendack_hands_over :
    nextAnd (exec .mixSendack p3t3)
      (fun t => t.mixer == ⟨.idle, 3, 254, 7, true, true⟩) = true := by decide
theorem test_mix_idle_waits :
    nextAnd (exec .mixIdle p3t4) (fun t => t.mixer == ⟨.idle, 4, 254, 7, false, false⟩) = true := by
  decide
theorem test_mix_idle_leaves_at_boundary :
    nextAnd (exec .mixIdle p3t7) (fun t => t.mixer.mstate == .compute) = true := by decide
theorem test_div_tick_wraps :
    nextAnd (exec .divTick { State.reset with mixer := { Mixer.initial with div := 7 } })
      (fun t => t.mixer.div == 0) = true := by decide
theorem test_div_tick_counts :
    nextAnd (exec .divTick { State.reset with mixer := { Mixer.initial with div := 6 } })
      (fun t => t.mixer.div == 7) = true := by decide

/-! ## Single ticks (PROG-3) -/

/-- Tick 4 to tick 5 of PROG-3: the snapshot's `ack` releases both oscillators while the mixer clears
it. -/
theorem test_tick_four : nextAnd (step p3t4) (· == p3t5) = true := by decide
/-- A selector of the SINE kind is placed and faults (R99). -/
theorem test_reserved_selector_faults :
    faultIs (step (State.reset.withFetchWord 8 0x08)) (.reservedSelector 0x08) = true := by decide
/-- The word of OSC.COMPUTE.TRI, placed after reset, runs in the next tick: TRIANGLE(0, 4). -/
theorem test_placed_triangle_runs :
    nextAnd (step (State.reset.withFetchWord 8 0x04))
      (fun t => t.oscs.map Osc.sample == [65534]) = true := by decide

/-- The reserved mixer word 0x14 (kind field 01) fits no register and is placed nowhere (log 2). -/
theorem test_reserved_mixer_word_placed_nowhere :
    State.withFetchWord p3t3 8 0x14 = p3t3 ∧ decodeTableWord 8 0x14 = none := by decide

/-! ## Witnesses: concrete states that meet the hypotheses of the statements -/

theorem test_inv_compute : Inv p3t2 := by constructor <;> decide
theorem test_inv_sendack : Inv p3t3 := by constructor <;> decide
theorem test_inv_accept : Inv p3t4 := by constructor <;> decide
theorem test_inv_idle : Inv p3t5 := by constructor <;> decide
theorem test_inv_boundary : Inv p3t7 := by constructor <;> decide
theorem test_inv_stall : Inv p3stall := by constructor <;> decide

/-- ComputeSquareResult, MixComputeResult: a running state with oscillators in COMPUTE. -/
theorem test_witness_inv_and_compute :
    Inv p3t5 ∧ (osc .square 3 .compute 1 0 false) ∈ p3t5.oscs := ⟨test_inv_idle, by decide⟩

/-- ComputeTriangleWrapResult. -/
theorem test_witness_triangle_wrap :
    p3t0.consts.triPolicy = .wrap ∧
    ∀ o ∈ p3t0.oscs, o.voice.kind = .triangle → o.ostate = .compute → 2 ≤ o.voice.period := by
  decide

/-- ComputeTriangleFaultPolicy: a phase that is out of range, and (c = h) one that is not. -/
theorem test_witness_triangle_fault :
    (∃ o ∈ [osc .triangle 4 .compute 0 0 false], o.voice.kind = .triangle ∧ o.ostate = .compute ∧
      triangleRaw 8 o.current o.voice.period > 2 ^ 8 - 1) ∧
    (∀ o ∈ [osc .triangle 4 .compute 2 0 false], o.voice.kind = .triangle → o.ostate = .compute →
      triangleRaw 8 o.current o.voice.period ≤ 2 ^ 8 - 1) := by decide

/-- WaitingResult, ReadyResult, OscillatorTransitionTable: legal
voices in each state. -/
theorem test_witness_oscillators :
    (∀ o ∈ p3t0.oscs, o.voice.kindOk = true ∧ o.voice.periodOk = true) ∧
    (osc .triangle 4 .waiting 1 5 false).voice.kindOk = true ∧
    (osc .triangle 4 .waiting 1 5 false).ostate = .waiting ∧
    (osc .square 4 .ready 1 5 true).voice.kindOk = true ∧
    (osc .square 4 .ready 1 5 true).ostate = .ready ∧
    k16.triPolicy = .wrap := by decide

/-- TransitionsIgnoreKindAndPhase: two oscillators of different kinds in one state, both with a next
state. -/
theorem test_witness_two_oscillators :
    oscAnd (oscNext k16 false (osc .square 4 .compute 3 0 false)) (fun _ => true) = true ∧
    oscAnd (oscNext k16 false (osc .triangle 8 .compute 5 9 false)) (fun _ => true) = true := by
  decide

/-- PlacedSelectorIsSelected, MixSendackResult. -/
theorem test_witness_one_voice : 1 ≤ State.reset.N ∧ encode .mixIdle ∈ selectorsOf .mixIdle := by decide

/-- DivTickResult: a tick that answers with `div` in range, and one with D = 1. -/
theorem test_witness_div :
    p3t7.mixer.div < p3t7.consts.D ∧ nextAnd (step p3t7) (fun _ => true) = true ∧
    nextAnd (step { p3t7 with consts := ⟨8, 4, 1, .wrap⟩ })
      (fun t => t.mixer.div == 0) = true := by decide

/-- OperationsWriteOnlyTheirAgent: an oscillator and a mixer that do not select an operation. -/
theorem test_witness_unselected :
    p3t3.oscs[0]?.map (fun o => o.selects .oscWaiting) = some false ∧
    p3t3.mixer.selects .mixIdle = false := by decide

/-- OperationsWriteOnlyTheirAgent: every operation has a next state somewhere. -/
theorem test_witness_operations_answer :
    ∀ i ∈ [Instr.oscComputeSq, .oscComputeTri, .oscWaiting, .oscReady, .mixCompute, .mixSendack,
      .mixIdle, .divTick], nextAnd (exec i p3t3) (fun _ => true) = true := by decide

/-- DivisionsByZeroAreRefused: a triangle of period 1 in COMPUTE, and SENDACK and COMPUTE with no
voice. -/
theorem test_witness_division_by_zero :
    k16.triPolicy = .wrap ∧
    (∃ o ∈ [osc .triangle 1 .compute 0 0 false], o.voice.kind = .triangle ∧ o.ostate = .compute ∧
      o.voice.period < 2) ∧
    (({ p3t3 with oscs := [] } : State).N = 0 ∧ p3t3.mixer.mstate = .sendack) ∧
    (({ p3t2 with oscs := [] } : State).N = 0 ∧ p3t2.mixer.mstate ≠ .sendack) := by decide

/-- TriangleShape: the clauses meet their conditions at c = 0, at the midpoint, just after it, and at
the last phase of an odd period, there also with the raw value in range. -/
theorem test_witness_triangle_shape :
    (0 < 5 / 2 ∧ triangleSample 4 0 5 = 14) ∧ triangleSample 4 2 5 = 15 ∧
    (3 > 5 / 2 ∧ triangleRaw 4 3 5 = 22 ∧ triangleSample 4 3 5 = 6) ∧
    (4 = 2 * (5 / 2) ∧ triangleSample 4 4 5 = 14) ∧
    (3 > 4 / 2 ∧ triangleRaw 1 3 4 = (maxSample 1 : Int)) := by decide

/-- SquareHighSamplesPerCycle, NarrowFitsOutputByte, NarrowIsTopBitsOfAverage,
AccumulatorNeverOverflows, PhaseIncrementWraps, RoundingIsNearest. -/
theorem test_witness_numbers :
    (1 ≤ 16 ∧ 1 ≤ 4) ∧ (1 ≤ 8 ∧ 8 < 16 ∧ 1 ≤ 5 ∧ 327675 ≤ 5 * maxSample 16) ∧
    (p3t3.oscs.length = 2 ∧ ∀ o ∈ p3t3.oscs, o.sample < 2 ^ 8) ∧ 3 < 4 ∧ (0 : Int) < 300 := by decide

/-- RoundingIsNearest: 1000 / 300 is no tie. -/
theorem test_witness_no_tie : ∀ k : Int, 2 * (1000 : Int) ≠ (2 * k + 1) * 300 := by
  intro k
  omega

/-- RoundingIsNearest: positive rates, their ratio as the statement writes it, and a rate that is not
positive. -/
theorem test_witness_rates :
    (⟨1000, 1⟩ : Rate).positive = true ∧ (⟨300, 1⟩ : Rate).positive = true ∧
    (⟨0, 1⟩ : Rate).positive = false ∧
    (⟨1000, 1⟩ : Rate).value / (⟨250, 1⟩ : Rate).value = 4 :=
  ⟨by decide, by decide, by decide, by norm_num [Rate.value]⟩

/-- BringUpDerivesThenChecks: a table with the profile asked for, and one without it. -/
theorem test_witness_bring_up :
    List.lookup "dev" [("dev", (⟨8000, 1⟩ : Rate))] = some ⟨8000, 1⟩ ∧
    List.lookup "dev" ([] : Profiles) = none := by decide

/-- R213, with the rates of L1.6: a clock of 8000 and a sample rate of 1000 give D = 8, and 1000 / 250
gives period 4, the configuration of PROG-1. -/
theorem test_bring_up :
    (match configure [("dev", ⟨8000, 1⟩)] (fun _ => true)
        { profile := some "dev", sampleRate := ⟨1000, 1⟩, W := 16, P := 8,
          voices := [⟨.square, ⟨250, 1⟩⟩] } with
      | .ok c => c == resetCfg
      | .error _ => false) = true := by decide

/-- StepRunsDecodedOperations: a step that answers, an oscillator and the mixer with decoded
operations; and every agent's operation answering. -/
theorem test_witness_decoded_step :
    nextAnd (step p3t3) (fun _ => true) = true ∧
    p3t3.oscs[0]?.map (fun o => (decode o.selector).toOption) = some (some .oscReady) ∧
    (decode p3t3.mixer.selector).toOption = some .mixSendack ∧
    nextAnd (exec .oscReady p3t3) (fun _ => true) = true ∧
    nextAnd (exec .mixSendack p3t3) (fun _ => true) = true := by decide

/-- StepIsWholeBlockTick, RunningBlockNeverStops, LegalStepStopsOnlyOnTriangleRange. -/
theorem test_witness_legal_wrap : p3t3.legal = true ∧ p3t3.consts.triPolicy = .wrap := by decide

/-- EveryStepKeepsInvariant, AckAndAcceptFollowSendack, SampleStableWhileReady: a running state that
steps, with an oscillator that begins the tick ready. -/
theorem test_witness_step_from_inv :
    Inv p3t3 ∧ nextAnd (step p3t3) (fun t => t.mixer.txAccept) = true ∧
    p3t3.oscs[0]?.map Osc.rdy = some true := ⟨test_inv_sendack, by decide, by decide⟩

/-- ReservedKindFaults. -/
theorem test_witness_reserved_kind :
    ∃ o ∈ (State.reset.withFetchWord 8 0x08).oscs, o.voice.kind = .sine ∨ o.voice.kind = .reserved := by
  decide

/-- ConfigurationNeverChanges. -/
theorem test_witness_run : nextAnd (runTicks 2 p3t3) (fun t => t.cfg == p3t3.cfg) = true := by decide

/-- TransportReadyOnlyMattersInSendack. -/
theorem test_witness_not_sendack : p3t2.mixer.mstate ≠ .sendack := by decide

/-- ReadyStaysLowTwoTicks: READY, acknowledged, and one more tick. -/
theorem test_witness_ready_falls :
    oscAnd (oscNext k16 true (osc .square 4 .ready 1 5 true)) (fun o => !o.rdy) = true ∧
    oscAnd (oscNext k16 true (osc .square 4 .compute 1 5 false)) (fun o => !o.rdy) = true := by decide

/-- OscillatorSamplesInOrder: the voice is legal and samples are computed (V-OSC-ALONE, two visits). -/
theorem test_witness_samples :
    (⟨.square, 3⟩ : Voice).kindOk = true ∧ (⟨.square, 3⟩ : Voice).periodOk = true ∧
    oscSamples k16 [false, false, true, true, true] (Osc.initial ⟨.square, 3⟩) = [0, 0] := by decide

/-- InvariantAtConstruction, DividerCountsTicks, FirstByteAtTickFour, EmittedBytesAreRoundBytes: a
legal configuration under the wrap policy, whose tx_ready at tick 3 is 1. -/
theorem test_witness_construction :
    p3cfg.wf = true ∧ p3cfg.triPolicy = .wrap ∧
    (State.ofCfg p3cfg [] (some true)).txReadyAfter 3 = true ∧
    nextAnd (runTicks 1 p3t0) (fun t => t.tick == 1) = true := by decide

/-- ComputeLastsAtMostThreeTicks, ReleaseAfterLatch, ForcedVoiceStallsMixer. -/
theorem test_witness_latching :
    Inv p3t2 ∧ p3t2.consts.triPolicy = .wrap ∧ p3t2.mixer.mstate = .compute ∧
    (∀ o ∈ p3t2.oscs, o.rdy = true) ∧ 0 < p3t2.N :=
  ⟨test_inv_compute, by decide, by decide, by decide, by decide⟩

/-- ComputeStartsAtPeriodBoundary: a tick from IDLE into COMPUTE (both clauses, with m = n = 0). -/
theorem test_witness_compute_entry :
    Inv p3t7 ∧ p3t7.mixer.mstate = .idle ∧
    nextAnd (step p3t7) (fun t => t.mixer.mstate == .compute) = true :=
  ⟨test_inv_boundary, by decide, by decide⟩

/-- BytesAtLeastFourTicksApart. -/
theorem test_witness_accept :
    Inv p3t4 ∧ p3t4.mixer.txAccept = true ∧ nextAnd (runTicks 1 p3t4) (fun _ => true) = true :=
  ⟨test_inv_accept, by decide, by decide⟩

/-- AlwaysReadyByteTicks: legal configurations with D = 7, D = 6 and D = 5. -/
theorem test_witness_always_ready :
    (p3cfg.wf = true ∧ 6 ≤ p3cfg.D) ∧ ({ p3cfg with D := 6 } : Cfg).wf = true ∧
    ({ p3cfg with D := 5 } : Cfg).wf = true := by decide

/-- AlwaysReadyByteTicks: the stream of the line `tx_ready 1*`, one bit and then that bit for ever. -/
theorem test_witness_always_ready_line :
    ∀ n, (State.ofCfg p3cfg [true] (some true)).txReadyAfter n = true
  | 0 => rfl
  | _ + 1 => rfl

/-- StalledTransportHoldsSendack. -/
theorem test_witness_stalled :
    Inv p3stall ∧ p3stall.consts.triPolicy = .wrap ∧ p3stall.mixer.mstate = .sendack ∧
    ∀ n, p3stall.txReadyAfter n = false :=
  ⟨test_inv_stall, by decide, by decide, fun _ => rfl⟩

/-- ReadyTransportGetsBytesForever: a transport that is always ready. -/
theorem test_witness_ready_forever :
    Inv p3t5 ∧ p3t5.consts.triPolicy = .wrap ∧ ∀ n, ∃ m ≥ n, p3t5.txReadyAfter m = true :=
  ⟨test_inv_idle, by decide, fun n => ⟨n, le_refl n, rfl⟩⟩

/-- FirstFailingCheckIsReported: a configuration that is refused. -/
theorem test_witness_refused :
    errorCodeIs (checkConfig [] none (raw 16 8 8 [])) .unknownProfile = true := by decide

/-- ProgramsAreLegal: PROG-1 with the pseudo-directives of R102 is accepted, with derived D = 8 and
period 4. -/
theorem test_witness_pseudo_directives :
    (match elaborate (fun _ => true)
        [.cfgRates 16 8 ⟨8000, 1⟩ ⟨1000, 1⟩, .oscRate .square ⟨250, 1⟩ ⟨1000, 1⟩] with
      | .ok p => p == ⟨resetCfg, [], none, 0⟩
      | .error _ => false) = true := by decide

/-- ProgramsAreLegal: PROG-1 in the notation. -/
theorem test_witness_program :
    (match elaborate (fun _ => true) [.cfg 16 8 8, .osc .square 4, .txReady ⟨[.bits [true]], true⟩,
        .run 40] with
      | .ok p => p == ⟨resetCfg, [true], some true, 40⟩
      | .error _ => false) = true := by decide

end Sys2Proof.Tests
end

section
/-! # Scope of the block (00_scope.md)

The width of the accumulator (R17, R20), the constancy of the configuration (R16, R40, R49) and the
rounding of derived periods and divisors (R14, R102, D11). -/

namespace Sys2Proof.Machine

/-! ## The accumulator's width -/

/-- The least `k` with `2 ^ k >= n` (R20). -/
theorem ceilLog2_le_iff (n k : Nat) : ceilLog2 n ≤ k ↔ n ≤ 2 ^ k := by
  unfold ceilLog2
  split
  case isTrue hn =>
    have hpow : 0 < 2 ^ k := by positivity
    omega
  case isFalse hn =>
    have hlog : (n - 1).log2 < k ↔ n - 1 < 2 ^ k := Nat.log2_lt (by omega)
    omega

theorem le_two_pow_ceilLog2 (n : Nat) : n ≤ 2 ^ ceilLog2 n :=
  (ceilLog2_le_iff n _).mp le_rfl

@[simp] theorem ceilLog2_one : ceilLog2 1 = 0 := rfl

/-- The largest possible sum of `N` samples fits the accumulator. -/
theorem mul_maxSample_lt_two_pow_accWidth {N : Nat} (W : Nat) (hN : 1 ≤ N) :
    N * maxSample W < 2 ^ accWidth W N :=
  calc N * maxSample W
    _ < N * 2 ^ W := Nat.mul_lt_mul_of_pos_left (maxSample_lt W) hN
    _ ≤ 2 ^ ceilLog2 N * 2 ^ W := Nat.mul_le_mul_right _ (le_two_pow_ceilLog2 N)
    _ = 2 ^ accWidth W N := by rw [accWidth, Nat.add_comm, pow_add]

theorem le_maxSample_iff (W v : Nat) : v ≤ maxSample W ↔ v < 2 ^ W := by
  have hpow : 0 < 2 ^ W := by positivity
  unfold maxSample
  omega

/-- Samples of `W` bits sum to at most `MAXS` each (R18). -/
theorem sampleSum_le {W : Nat} {os : List Osc} (h : ∀ o ∈ os, o.sample < 2 ^ W) :
    sampleSum os ≤ os.length * maxSample W := by
  have hle : ∀ v ∈ os.map Osc.sample, v ≤ maxSample W := by
    simpa [le_maxSample_iff] using h
  simpa [sampleSum] using List.sum_le_card_nsmul _ _ hle

/-- Settles O22: `ceilLog2 N <= k` and `N <= 2 ^ k` say the same. -/
theorem accumulatorNeverOverflows : Obligations.AccumulatorNeverOverflows := by
  intro W N hN
  refine ⟨rfl, le_two_pow_ceilLog2 N, fun k => (ceilLog2_le_iff N k).mpr, ?_,
    mul_maxSample_lt_two_pow_accWidth W hN, ?_⟩
  · rintro rfl
    simp [accWidth]
  · rintro os rfl hos
    exact sampleSum_le hos

/-! ## The configuration is constant -/

/-- What an oscillator's rule keeps of its record, the operation keeps of every oscillator. -/
theorem performOsc_keeps_map {γ : Type} {proj : Osc → γ} {sel : Osc → Bool} {f : Osc → Out Osc}
    (hf : ∀ o o', f o = .next o' → proj o' = proj o) {s t : State}
    (h : performOsc sel f s = .next t) : t.oscs.map proj = s.oscs.map proj := by
  obtain ⟨os, rfl, hos⟩ := performOsc_eq_next h
  have hproj : List.Forall₂ (fun o o' => proj o = proj o') s.oscs os := by
    refine hos.imp fun o o' ho => ?_
    split at ho
    · exact (hf o o' ho).symm
    · cases ho
      rfl
  have hmaps : s.oscs.map proj = os.map proj := by
    rwa [← List.forall₂_eq_eq_eq, List.forall₂_map_left_iff, List.forall₂_map_right_iff]
  exact hmaps.symm

theorem performMix_oscs {sel : Mixer → Bool} {f : Mixer → Out Mixer} {s t : State}
    (h : performMix sel f s = .next t) : t.oscs = s.oscs := by
  obtain ⟨-, m, -, rfl⟩ | ⟨-, rfl⟩ := performMix_eq_next h <;> rfl

theorem exec_divTick_eq (s : State) :
    exec .divTick s = performMix (fun _ => true) (divTick s.consts) s := rfl

theorem oscComputeSq_voice {k : Consts} {o o' : Osc} (h : oscComputeSq k o = .next o') :
    o'.voice = o.voice := by
  cases h
  rfl

/-- What OSC.COMPUTE.TRI writes when it answers, under either policy (R118). -/
theorem oscComputeTri_eq_next {k : Consts} {o o' : Osc} (h : oscComputeTri k o = .next o') :
    o' = o.computed (triangleSample k.W o.current o.voice.period) := by
  unfold oscComputeTri at h
  split at h
  · exact nomatch h
  · split at h
    · exact nomatch h
    · cases h
      rfl

theorem oscWaiting_voice {ack : Bool} {o o' : Osc} (h : oscWaiting ack o = .next o') :
    o'.voice = o.voice := by
  cases h
  cases ack <;> rfl

theorem oscReady_voice {ack : Bool} {o o' : Osc} (h : oscReady ack o = .next o') :
    o'.voice = o.voice := by
  cases h
  cases ack <;> rfl

/-- No operation writes a kind or a period (R40). -/
theorem exec_voices {i : Instr} {s t : State} (h : exec i s = .next t) :
    t.oscs.map Osc.voice = s.oscs.map Osc.voice := by
  cases i with
  | oscComputeSq => exact performOsc_keeps_map (fun _ _ => oscComputeSq_voice) h
  | oscComputeTri =>
    exact performOsc_keeps_map (fun o o' ho => by rw [oscComputeTri_eq_next ho, Osc.computed_voice]) h
  | oscWaiting => exact performOsc_keeps_map (fun _ _ => oscWaiting_voice) h
  | oscReady => exact performOsc_keeps_map (fun _ _ => oscReady_voice) h
  | mixCompute | mixSendack | mixIdle => rw [performMix_oscs h]
  | divTick => rw [performMix_oscs ((exec_divTick_eq s).symm.trans h)]

/-- The tick takes from each operation the record at the oscillator's own position, so gathering keeps
the voices of the oscillators from position `j` on. -/
theorem gatherOscs_voices {s : State} {j : Nat} {os os' : List Osc} (hos : os = s.oscs.drop j)
    (h : gatherOscs s j os = .next os') : os'.map Osc.voice = os.map Osc.voice := by
  induction os generalizing j os' with
  | nil =>
    cases h
    rfl
  | cons o os ih =>
    obtain ⟨u, rest, hu, hrest, rfl⟩ := gatherOscs_cons h
    obtain ⟨i, -, hexec⟩ := runSelector_eq_next hu
    have hj : s.oscs[j]? = some o := by simpa using (congrArg List.head? hos).symm
    have htail : os = s.oscs.drop (j + 1) := by simpa using congrArg List.tail hos
    have hhead : (u.oscs.getD j o).voice = o.voice :=
      calc (u.oscs.getD j o).voice
        _ = (u.oscs.map Osc.voice).getD j o.voice := (List.getD_map _ _ Osc.voice).symm
        _ = (s.oscs.map Osc.voice).getD j o.voice := by rw [exec_voices hexec]
        _ = o.voice := by simp [hj]
    rw [List.map_cons, List.map_cons, hhead, ih htail hrest]

theorem step_cfg {s t : State} (h : step s = .next t) : t.cfg = s.cfg := by
  obtain ⟨os, m, d, hos, -, -, rfl⟩ := tick_eq_next h
  have hvoices : os.map Osc.voice = s.oscs.map Osc.voice := gatherOscs_voices rfl hos
  simp [State.cfg, hvoices]

theorem runTicks_cfg {n : Nat} {s t : State} (h : runTicks n s = .next t) : t.cfg = s.cfg :=
  runTicks_keeps (P := fun u => u.cfg = s.cfg) (fun _ _ hu hstep => (step_cfg hstep).trans hu) rfl h

/-- The configuration holds every scalar constant. -/
theorem consts_eq_of_cfg_eq {s t : State} (h : t.cfg = s.cfg) : t.consts = s.consts :=
  calc t.consts
    _ = ⟨t.cfg.W, t.cfg.P, t.cfg.D, t.cfg.triPolicy⟩ := rfl
    _ = ⟨s.cfg.W, s.cfg.P, s.cfg.D, s.cfg.triPolicy⟩ := by rw [h]
    _ = s.consts := rfl

/-- Settles O33: every step keeps the configuration, so a run does; N and the scalar constants are
read off it. -/
theorem configurationNeverChanges : Obligations.ConfigurationNeverChanges := by
  intro n s t h
  have hcfg : t.cfg = s.cfg := runTicks_cfg h
  have hN : t.N = s.N := by rw [← State.cfg_N, hcfg, State.cfg_N]
  exact ⟨hcfg, hN, consts_eq_of_cfg_eq hcfg⟩

/-! ## Rounding -/

section
variable (mode mode' : RoundMode) {n d : Int}

/-- The rounded ratio misses the ratio by at most a half: `n % d` says by how much each of the two
candidates `n / d` and `n / d + 1` misses it. -/
theorem roundRatio_nearest (hd : 0 < d) :
    2 * (roundRatio mode n d * d - n) ≤ d ∧ 2 * (n - roundRatio mode n d * d) ≤ d := by
  have hdiv : n / d * d + n % d = n := Int.ediv_mul_add_emod n d
  have hnonneg : 0 ≤ n % d := Int.emod_nonneg n hd.ne'
  have hlt : n % d < d := Int.emod_lt_of_pos n hd
  have hup : (n / d + 1) * d = n / d * d + d := by ring
  unfold roundRatio
  split_ifs <;> omega

/-- ROUND_MODE is asked only about a remainder of exactly half the divisor. -/
theorem roundRatio_mode_irrelevant (hnotie : ∀ k : Int, 2 * n ≠ (2 * k + 1) * d) :
    roundRatio mode n d = roundRatio mode' n d := by
  have hdiv : n / d * d + n % d = n := Int.ediv_mul_add_emod n d
  have hhalf : 2 * (n % d) ≠ d := fun htie => hnotie (n / d) (by linarith)
  obtain hbelow | habove := lt_or_gt_of_ne hhalf
  · simp [roundRatio, hbelow]
  · simp [roundRatio, habove, habove.not_gt]

/-- `roundRatio_nearest` as a statement about the rational `n / d`. -/
theorem abs_roundRatio_sub_div_le (hd : 0 < d) :
    |(roundRatio mode n d : ℚ) - n / d| ≤ 1 / 2 := by
  obtain ⟨hupper, hlower⟩ := roundRatio_nearest mode (n := n) hd
  have hdQ : (0 : ℚ) < d := by exact_mod_cast hd
  have hupperQ : 2 * ((roundRatio mode n d : ℚ) * d - n) ≤ d := by exact_mod_cast hupper
  have hlowerQ : 2 * ((n : ℚ) - roundRatio mode n d * d) ≤ d := by exact_mod_cast hlower
  rw [sub_div' hdQ.ne', abs_div, abs_of_pos hdQ, div_le_iff₀ hdQ, abs_le]
  constructor <;> linarith

/-- A ratio that is no integer and a half is no tie. -/
theorem ne_tie_of_div_ne (hd : 0 < d) (hnotie : ∀ k : Int, (n : ℚ) / d ≠ k + 1 / 2) (k : Int) :
    2 * n ≠ (2 * k + 1) * d := by
  intro htie
  have hdQ : (0 : ℚ) < d := by exact_mod_cast hd
  have htieQ : 2 * (n : ℚ) = (2 * k + 1) * d := by exact_mod_cast htie
  refine hnotie k ?_
  rw [div_eq_iff hdQ.ne']
  linarith

end

theorem rate_positive_iff (r : Rate) : r.positive = true ↔ 0 < r.num ∧ 0 < r.den := by
  simp [Rate.positive]

/-- The ratio of two rates as the one fraction that is rounded. -/
theorem value_div_value_eq (a b : Rate) :
    a.value / b.value = ((a.num * b.den : Int) : ℚ) / ((a.den * b.num : Int) : ℚ) := by
  simp [Rate.value, div_div_div_eq]

section
variable {a b : Rate} (ha : a.positive = true) (hb : b.positive = true)
include ha hb

/-- The denominator of the ratio of two positive rates is positive. -/
theorem ratio_den_pos : 0 < (a.den : Int) * b.num := by
  obtain ⟨-, hden⟩ := (rate_positive_iff a).mp ha
  obtain ⟨hnum, -⟩ := (rate_positive_iff b).mp hb
  positivity

/-- The rounded ratio of two positive rates is a nearest integer to it. -/
theorem abs_roundRatio_rates_le (mode : RoundMode) :
    |(roundRatio mode (a.num * b.den) (a.den * b.num) : ℚ) - a.value / b.value| ≤ 1 / 2 := by
  rw [value_div_value_eq]
  exact abs_roundRatio_sub_div_le mode (ratio_den_pos ha hb)

/-- The rounded ratio of two positive rates depends on ROUND_MODE only at a tie. -/
theorem roundRatio_rates_mode_irrelevant (mode mode' : RoundMode)
    (hnotie : ∀ k : Int, a.value / b.value ≠ k + 1 / 2) :
    roundRatio mode (a.num * b.den) (a.den * b.num) =
      roundRatio mode' (a.num * b.den) (a.den * b.num) := by
  rw [value_div_value_eq] at hnotie
  exact roundRatio_mode_irrelevant mode mode' (ne_tie_of_div_ne (ratio_den_pos ha hb) hnotie)

end

theorem derivePeriod_of_positive (mode : RoundMode) {R f : Rate} (hR : R.positive = true)
    (hf : f.positive = true) :
    derivePeriod mode R f = some (roundRatio mode (R.num * f.den) (R.den * f.num)) := by
  simp [derivePeriod, hR, hf]

theorem derivePeriod_eq_none_iff (mode : RoundMode) (R f : Rate) :
    derivePeriod mode R f = none ↔ ¬ (R.positive = true ∧ f.positive = true) := by
  simp [derivePeriod]

theorem deriveDivisor_of_positive (mode : RoundMode) {clk R : Rate} (hclk : clk.positive = true)
    (hR : R.positive = true) :
    deriveDivisor mode clk R = roundRatio mode (clk.num * R.den) (clk.den * R.num) := by
  simp [deriveDivisor, hclk, hR]

theorem deriveDivisor_of_not_positive (mode : RoundMode) {clk R : Rate}
    (h : ¬ (clk.positive = true ∧ R.positive = true)) : deriveDivisor mode clk R = 0 := by
  simp [deriveDivisor, h]

/-- Settles O56: both derivations round the one fraction of two positive rates. -/
theorem roundingIsNearest : Obligations.RoundingIsNearest := by
  refine ⟨fun mode mode' n d hd => ?_, fun mode mode' R f => ?_, fun mode mode' clk R => ?_⟩
  · obtain ⟨hupper, hlower⟩ := roundRatio_nearest mode (n := n) hd
    exact ⟨hupper, hlower, roundRatio_mode_irrelevant mode mode'⟩
  · refine ⟨derivePeriod_eq_none_iff mode R f, fun hR hf =>
      ⟨_, derivePeriod_of_positive mode hR hf, abs_roundRatio_rates_le hR hf mode, fun hnotie => ?_⟩⟩
    rw [derivePeriod_of_positive mode' hR hf,
      roundRatio_rates_mode_irrelevant hR hf mode' mode hnotie]
  · refine ⟨deriveDivisor_of_not_positive mode, fun hclk hR => ?_⟩
    rw [deriveDivisor_of_positive mode hclk hR, deriveDivisor_of_positive mode' hclk hR]
    exact ⟨abs_roundRatio_rates_le hclk hR mode,
      roundRatio_rates_mode_irrelevant hclk hR mode' mode⟩

end Sys2Proof.Machine
end

section
/-! # The state (10_state.md)

The frame of every operation (R31, R49, D17): the oscillator operations, the operations of the mixer's
FSM and DIV.TICK each write registers of the agents that select them, and no others. -/

namespace Sys2Proof.Machine

/-! ## The three families of operations -/

/-- The operations of unit 0b00 (R98). -/
abbrev oscOps : List Instr := [.oscComputeSq, .oscComputeTri, .oscWaiting, .oscReady]

/-- The operations of unit 0b01 (R98). -/
abbrev mixOps : List Instr := [.mixCompute, .mixSendack, .mixIdle]

theorem mem_oscOps_or_mem_mixOps_or_eq_divTick (i : Instr) :
    i ∈ oscOps ∨ i ∈ mixOps ∨ i = .divTick := by
  cases i <;> decide

theorem exec_oscOp_eq_performOsc {i : Instr} (hi : i ∈ oscOps) (s : State) :
    ∃ f, exec i s = performOsc (Osc.selects i) f s := by
  fin_cases hi <;> exact ⟨_, rfl⟩

theorem exec_mixOp_eq_performMix {i : Instr} (hi : i ∈ mixOps) (s : State) :
    ∃ f, exec i s = performMix (Mixer.selects i) f s := by
  fin_cases hi <;> exact ⟨_, rfl⟩

/-- What an oscillator operation can do: it writes oscillators that select it, and nothing else. -/
theorem exec_oscOp_eq_next {i : Instr} {s t : State} (hi : i ∈ oscOps) (h : exec i s = .next t) :
    ∃ os, t = s.setOscs os ∧
      ∀ (j : Nat) (o : Osc), s.oscs[j]? = some o → o.selects i = false → os[j]? = some o := by
  obtain ⟨f, hf⟩ := exec_oscOp_eq_performOsc hi s
  obtain ⟨os, rfl, hos⟩ := performOsc_eq_next (hf.symm.trans h)
  refine ⟨os, rfl, fun j o hj hsel => ?_⟩
  obtain ⟨hlen, hat⟩ := List.forall₂_iff_get.mp hos
  obtain ⟨hjs, rfl⟩ := List.getElem?_eq_some_iff.mp hj
  have hjos : j < os.length := hlen ▸ hjs
  have hkept : s.oscs[j] = os[j] := by simpa [hsel] using hat j hjs hjos
  rw [hkept, List.getElem?_eq_getElem hjos]

/-- What an operation of the mixer's FSM can do: it writes the mixer if the mixer selects it, and
nothing else. -/
theorem exec_mixOp_eq_next {i : Instr} {s t : State} (hi : i ∈ mixOps) (h : exec i s = .next t) :
    ∃ m, t = s.setMixer m ∧ (s.mixer.selects i = false → m = s.mixer) := by
  obtain ⟨f, hf⟩ := exec_mixOp_eq_performMix hi s
  obtain ⟨hsel, m, -, rfl⟩ | ⟨-, rfl⟩ := performMix_eq_next (hf.symm.trans h)
  · exact ⟨m, rfl, fun hnot => by simp [hsel] at hnot⟩
  · exact ⟨t.mixer, rfl, fun _ => rfl⟩

/-- What DIV.TICK does: it writes `div` (R146). -/
theorem exec_divTick_eq_next {s t : State} (h : exec .divTick s = .next t) :
    t = s.setMixer (s.mixer.setDiv (nextCount s.mixer.div s.consts.D)) := by
  cases h
  rfl

/-! ## What every operation keeps -/

/-- The constants, the tick number and the input stream are no agent's registers. -/
theorem exec_keeps_consts_tick_stream {i : Instr} {s t : State} (h : exec i s = .next t) :
    t.consts = s.consts ∧ t.tick = s.tick ∧ t.txBits = s.txBits ∧ t.txRest = s.txRest := by
  obtain hosc | hmix | rfl := mem_oscOps_or_mem_mixOps_or_eq_divTick i
  · obtain ⟨os, rfl, -⟩ := exec_oscOp_eq_next hosc h
    simp
  · obtain ⟨m, rfl, -⟩ := exec_mixOp_eq_next hmix h
    simp
  · obtain rfl := exec_divTick_eq_next h
    simp

theorem exec_oscs_length {i : Instr} {s t : State} (h : exec i s = .next t) :
    t.oscs.length = s.oscs.length := by
  simpa using congrArg List.length (exec_voices h)

theorem exec_keeps_unselecting_osc {i : Instr} {s t : State} (h : exec i s = .next t) {j : Nat}
    {o : Osc} (hj : s.oscs[j]? = some o) (hsel : o.selects i = false) : t.oscs[j]? = some o := by
  obtain hosc | hmix | rfl := mem_oscOps_or_mem_mixOps_or_eq_divTick i
  · obtain ⟨os, rfl, hos⟩ := exec_oscOp_eq_next hosc h
    exact hos j o hj hsel
  · obtain ⟨m, rfl, -⟩ := exec_mixOp_eq_next hmix h
    exact hj
  · obtain rfl := exec_divTick_eq_next h
    exact hj

/-! ## What the operations of one family keep -/

theorem exec_mixOp_keeps_unselecting_mixer {i : Instr} {s t : State} (hi : i ∈ mixOps)
    (hsel : s.mixer.selects i = false) (h : exec i s = .next t) : t.mixer = s.mixer := by
  obtain ⟨m, rfl, hm⟩ := exec_mixOp_eq_next hi h
  exact hm hsel

theorem exec_oscOp_mixer {i : Instr} {s t : State} (hi : i ∈ oscOps) (h : exec i s = .next t) :
    t.mixer = s.mixer := by
  obtain ⟨os, rfl, -⟩ := exec_oscOp_eq_next hi h
  rfl

theorem exec_mixOp_oscs {i : Instr} {s t : State} (hi : i ∈ mixOps) (h : exec i s = .next t) :
    t.oscs = s.oscs := by
  obtain ⟨m, rfl, -⟩ := exec_mixOp_eq_next hi h
  rfl

theorem exec_divTick_oscs {s t : State} (h : exec .divTick s = .next t) : t.oscs = s.oscs := by
  obtain rfl := exec_divTick_eq_next h
  rfl

/-! ## The registers one operation writes

An operation keeps every reading `proj` of a record that its writes do not change. -/

section
variable {γ : Type} {s t : State}

/-- OSC.WAITING and OSC.READY write `rdy` and `ostate` (R120, R121). -/
theorem exec_handshake_keeps_map {proj : Osc → γ}
    (hproj : ∀ (o : Osc) (b : Bool) (st : OState), proj { o.setRdy b with ostate := st } = proj o)
    {i : Instr} (hi : i ∈ [.oscWaiting, .oscReady]) (h : exec i s = .next t) :
    t.oscs.map proj = s.oscs.map proj := by
  fin_cases hi
  · refine performOsc_keeps_map (fun o o' ho => ?_) h
    cases ho
    split
    · rfl
    · exact hproj o _ _
  · refine performOsc_keeps_map (fun o o' ho => ?_) h
    cases ho
    split
    · exact hproj o _ _
    · rfl

/-- OSC.COMPUTE writes the sample, the phase and `ostate`, whatever the kind (R117, R118). -/
theorem exec_oscCompute_keeps_map {proj : Osc → γ} (hproj : ∀ o v, proj (Osc.computed o v) = proj o)
    {i : Instr} (hi : i ∈ [.oscComputeSq, .oscComputeTri]) (h : exec i s = .next t) :
    t.oscs.map proj = s.oscs.map proj := by
  fin_cases hi
  · refine performOsc_keeps_map (fun o o' ho => ?_) h
    cases ho
    exact hproj o _
  · exact performOsc_keeps_map (fun o o' ho => by rw [oscComputeTri_eq_next ho, hproj]) h

/-- What a rule keeps of the mixer's registers, the operation keeps. -/
theorem performMix_keeps {proj : Mixer → γ} {sel : Mixer → Bool} {f : Mixer → Out Mixer}
    (hf : ∀ m m', f m = .next m' → proj m' = proj m) (h : performMix sel f s = .next t) :
    proj t.mixer = proj s.mixer := by
  obtain ⟨-, m, hm, rfl⟩ | ⟨-, rfl⟩ := performMix_eq_next h
  · exact hf _ _ hm
  · rfl

/-- MIX.COMPUTE writes `mixed` and `mstate` (R150). -/
theorem exec_mixCompute_keeps {proj : Mixer → γ}
    (hproj : ∀ (m : Mixer) (v : Nat) (st : MState), proj { m with mixed := v, mstate := st } = proj m)
    (h : exec .mixCompute s = .next t) : proj t.mixer = proj s.mixer := by
  refine performMix_keeps (fun m m' hm => ?_) h
  cases hm
  split
  · exact hproj m _ _
  · rfl

/-- MIX.SENDACK writes `ack`, `tx_accept`, `out_byte` and `mstate` (R152). -/
theorem exec_mixSendack_keeps {proj : Mixer → γ}
    (hproj : ∀ (m : Mixer) (a x : Bool) (b : Nat) (st : MState),
      proj { (m.setAck a).setTxAccept x with outByte := b, mstate := st } = proj m)
    (h : exec .mixSendack s = .next t) : proj t.mixer = proj s.mixer := by
  refine performMix_keeps (fun m m' hm => ?_) h
  unfold mixSendack at hm
  split at hm
  · exact nomatch hm
  · cases hm
    split
    · exact hproj m _ _ _ _
    · exact hproj m true m.txAccept m.outByte m.mstate

/-- MIX.IDLE writes `ack`, `tx_accept` and `mstate` (R155). -/
theorem exec_mixIdle_keeps {proj : Mixer → γ}
    (hproj : ∀ (m : Mixer) (a x : Bool) (st : MState),
      proj { (m.setAck a).setTxAccept x with mstate := st } = proj m)
    (h : exec .mixIdle s = .next t) : proj t.mixer = proj s.mixer := by
  refine performMix_keeps (fun m m' hm => ?_) h
  cases hm
  exact hproj m _ _ _

end

section
variable {i : Instr} {s t : State}

/-- `div` is DIV.TICK's alone (D17). -/
theorem exec_mixOp_div (hi : i ∈ mixOps) (h : exec i s = .next t) :
    t.mixer.div = s.mixer.div := by
  fin_cases hi
  · exact exec_mixCompute_keeps (proj := Mixer.div) (fun _ _ _ => rfl) h
  · exact exec_mixSendack_keeps (proj := Mixer.div) (fun _ _ _ _ _ => rfl) h
  · exact exec_mixIdle_keeps (proj := Mixer.div) (fun _ _ _ _ => rfl) h

theorem exec_mixed_of_mem (hi : i ∈ [.mixSendack, .mixIdle]) (h : exec i s = .next t) :
    t.mixer.mixed = s.mixer.mixed := by
  fin_cases hi
  · exact exec_mixSendack_keeps (proj := Mixer.mixed) (fun _ _ _ _ _ => rfl) h
  · exact exec_mixIdle_keeps (proj := Mixer.mixed) (fun _ _ _ _ => rfl) h

theorem exec_outByte_of_mem (hi : i ∈ [.mixCompute, .mixIdle]) (h : exec i s = .next t) :
    t.mixer.outByte = s.mixer.outByte := by
  fin_cases hi
  · exact exec_mixCompute_keeps (proj := Mixer.outByte) (fun _ _ _ => rfl) h
  · exact exec_mixIdle_keeps (proj := Mixer.outByte) (fun _ _ _ _ => rfl) h

end

/-- Settles O16: the clauses about agents follow from the family of the operation, those about single
registers from what each operation writes. -/
theorem operationsWriteOnlyTheirAgent : Obligations.OperationsWriteOnlyTheirAgent := by
  intro i s t h
  obtain ⟨hconsts, htick, hbits, hrest⟩ := exec_keeps_consts_tick_stream h
  refine ⟨hconsts, htick, hbits, hrest, exec_oscs_length h, exec_voices h,
    fun j o => exec_keeps_unselecting_osc h,
    fun hi hsel => exec_mixOp_keeps_unselecting_mixer hi hsel h,
    fun hi => exec_oscOp_mixer hi h,
    fun hi => ⟨exec_handshake_keeps_map (fun _ _ _ => rfl) hi h,
      exec_handshake_keeps_map (fun _ _ _ => rfl) hi h⟩,
    fun hi => exec_oscCompute_keeps_map Osc.computed_rdy hi h,
    fun hi => ?_, fun hi => exec_mixOp_div hi h, fun hi => exec_mixed_of_mem hi h,
    fun hi => exec_outByte_of_mem hi h, ?_⟩
  · obtain hmix | hdiv : i ∈ mixOps ∨ i = .divTick := by simpa [or_assoc] using hi
    · exact exec_mixOp_oscs hmix h
    · exact exec_divTick_oscs (hdiv ▸ h)
  · rintro rfl
    obtain rfl := exec_divTick_eq_next h
    exact ⟨_, rfl⟩

end Sys2Proof.Machine
end

section
/-! # The snapshot and the commit of a tick (20_memory.md)

The operations of one tick are computed from one frozen snapshot and committed together (R72): first
for the decoded operations of any state (R97), then, for a legal block under the wrap policy, against
the whole-block tick of R161 written out directly. -/

namespace Sys2Proof.Machine

/-! ## Operations and the agents that select them -/

theorem Osc.selects_iff (i : Instr) (o : Osc) : o.selects i = true ↔ decode o.selector = .ok i := by
  unfold Osc.selects selectorNames
  cases decode o.selector <;> simp [Except.toOption]

/-- An operation reads its rule only at the oscillators that select it. -/
theorem performOsc_congr {sel : Osc → Bool} {f g : Osc → Out Osc} (h : ∀ o, sel o = true → f o = g o)
    (s : State) : performOsc sel f s = performOsc sel g s := by
  have hfg : (fun o => if sel o then f o else .next o) = fun o => if sel o then g o else .next o := by
    funext o
    split
    next hsel => exact h o hsel
    next => rfl
  simp only [performOsc, hfg]

theorem performMix_of_selects {sel : Mixer → Bool} {f : Mixer → Out Mixer} {s : State} {m : Mixer}
    (hsel : sel s.mixer = true) (hf : f s.mixer = .next m) :
    performMix sel f s = .next (s.setMixer m) := by
  simp [performMix, hsel, hf]

/-! ## Gathering the oscillators -/

/-- Gathering answers if every oscillator's operation does. -/
theorem gatherOscs_answers {s : State} {os : List Osc}
    (h : ∀ o ∈ os, ∃ u, runSelector o.selector s = .next u) (j : Nat) :
    ∃ os', gatherOscs s j os = .next os' := by
  induction os generalizing j with
  | nil => exact ⟨[], rfl⟩
  | cons o os ih =>
    obtain ⟨hhead, htail⟩ := List.forall_mem_cons.mp h
    obtain ⟨u, hu⟩ := hhead
    obtain ⟨rest, hrest⟩ := ih htail (j + 1)
    exact ⟨u.oscs.getD j o :: rest, by simp [gatherOscs, hu, hrest]⟩

/-- Gathering from position `j` on takes the record at position `j + k` from the operation of the
`k`-th oscillator. -/
theorem gatherOscs_getElem? {s : State} {j k : Nat} {os os' : List Osc} {o : Osc}
    (h : gatherOscs s j os = .next os') (hk : os[k]? = some o) :
    ∃ u, runSelector o.selector s = .next u ∧ os'[k]? = some (u.oscs.getD (j + k) o) := by
  induction os generalizing j k os' with
  | nil => simp at hk
  | cons p os ih =>
    obtain ⟨u, rest, hu, hrest, rfl⟩ := gatherOscs_cons h
    cases k with
    | zero =>
      obtain rfl : p = o := by simpa using hk
      exact ⟨u, hu, rfl⟩
    | succ k =>
      obtain ⟨v, hv, hat⟩ := ih hrest (by simpa using hk)
      exact ⟨v, hv, by simpa [Nat.add_right_comm, Nat.add_assoc] using hat⟩

/-! ## A step runs the decoded operations -/

/-- A tick answers if every agent's operation does; DIV.TICK always does (R146). -/
theorem tick_answers {s : State} (hosc : ∀ o ∈ s.oscs, ∃ u, runSelector o.selector s = .next u)
    (hmix : ∃ u, runSelector s.mixer.selector s = .next u) : ∃ t, tick s = .next t := by
  obtain ⟨os, hos⟩ := gatherOscs_answers hosc 0
  obtain ⟨u, hu⟩ := hmix
  obtain ⟨d, hd⟩ : ∃ d, runSelector divSelector s = .next d :=
    ⟨_, runSelector_ok decode_divSelector s⟩
  exact ⟨s.commit os u.mixer d.mixer.div, by simp [tick, hos, hu, hd]⟩

theorem runSelector_answers {sel : Selector} {s : State}
    (h : ∃ i u, decode sel = .ok i ∧ exec i s = .next u) : ∃ u, runSelector sel s = .next u := by
  obtain ⟨i, u, hdec, hexec⟩ := h
  exact ⟨u, (runSelector_ok hdec s).trans hexec⟩

/-- Each oscillator's record after a step is the one its decoded operation leaves at its position. -/
theorem step_osc {s t : State} (h : step s = .next t) {j : Nat} {o : Osc} {i : Instr}
    (hj : s.oscs[j]? = some o) (hdec : decode o.selector = .ok i) :
    ∃ u, exec i s = .next u ∧ t.oscs[j]? = u.oscs[j]? := by
  obtain ⟨os, m, d, hos, -, -, rfl⟩ := tick_eq_next h
  obtain ⟨u, hu, hat⟩ := gatherOscs_getElem? hos hj
  have hexec : exec i s = .next u := (runSelector_ok hdec s).symm.trans hu
  have hlen : j < u.oscs.length := by
    rw [exec_oscs_length hexec]
    exact (List.getElem?_eq_some_iff.mp hj).1
  exact ⟨u, hexec, by simpa [hlen] using hat⟩

/-- The mixer's registers after a step are those its decoded operation leaves, but for `div`, which
is DIV.TICK's. -/
theorem step_mixer {s t : State} (h : step s = .next t) {i : Instr}
    (hdec : decode s.mixer.selector = .ok i) :
    ∃ u d, exec i s = .next u ∧ exec .divTick s = .next d ∧
      t.mixer = { u.mixer with div := d.mixer.div } := by
  obtain ⟨os, u, d, -, hu, hd, rfl⟩ := tick_eq_next h
  exact ⟨u, d, (runSelector_ok hdec s).symm.trans hu, hd, rfl⟩

theorem step_oscs_length {s t : State} (h : step s = .next t) : t.oscs.length = s.oscs.length := by
  obtain ⟨os, m, d, hos, -, -, rfl⟩ := tick_eq_next h
  exact gatherOscs_length hos

/-- What a step does beside the agents' registers (R23, R101). -/
theorem step_consts_tick_stream {s t : State} (h : step s = .next t) :
    t.consts = s.consts ∧ t.tick = s.tick + 1 ∧ t.txBits = s.txBits.tail ∧ t.txRest = s.txRest := by
  obtain ⟨os, m, d, -, -, -, rfl⟩ := tick_eq_next h
  simp

/-- Settles O24: what a tick gathers comes from the agents' own operations, and it answers if they
do. -/
theorem stepRunsDecodedOperations : Obligations.StepRunsDecodedOperations :=
  ⟨fun _ _ h => ⟨step_oscs_length h, fun _ _ _ => step_osc h, fun _ => step_mixer h,
      step_consts_tick_stream h⟩,
    fun _ hosc hmix => tick_answers (fun o ho => runSelector_answers (hosc o ho))
      (runSelector_answers hmix)⟩

/-! ## Legal blocks -/

theorem voice_kindOk_iff (v : Voice) :
    v.kindOk = true ↔ v.kind = .square ∨ v.kind = .triangle := by
  simp [Voice.kindOk]

theorem voice_periodOk_iff (v : Voice) :
    v.periodOk = true ↔ 1 ≤ v.period ∧ (v.kind = .triangle → 2 ≤ v.period) := by
  simp [Voice.periodOk, or_iff_not_imp_left]

/-- The legal configurations, check by check (R11 to R15). -/
theorem cfg_wf_iff (c : Cfg) :
    c.wf = true ↔ (1 ≤ c.P ∧ c.P < c.W) ∧ 1 ≤ c.N ∧ 1 ≤ c.D ∧
      (∀ v ∈ c.voices, v.kindOk = true) ∧ ∀ v ∈ c.voices, v.periodOk = true := by
  simp [Cfg.wf, Cfg.widthsOk, Cfg.countOk, Cfg.divisorOk, and_assoc]

theorem legal_N_pos {s : State} (h : s.legal = true) : 0 < s.N := by
  obtain ⟨-, hN, -⟩ := (cfg_wf_iff s.cfg).mp h
  rwa [State.cfg_N] at hN

theorem legal_voice {s : State} (h : s.legal = true) {o : Osc} (ho : o ∈ s.oscs) :
    o.voice.kindOk = true ∧ o.voice.periodOk = true := by
  obtain ⟨-, -, -, hkind, hperiod⟩ := (cfg_wf_iff s.cfg).mp h
  have hv : o.voice ∈ s.cfg.voices := List.mem_map_of_mem ho
  exact ⟨hkind _ hv, hperiod _ hv⟩

/-! ## One oscillator's part of the tick -/

/-- An oscillator's part of R161, from its own record and the snapshot's `ack`. -/
def Osc.blockTick (k : Consts) (ack : Bool) (o : Osc) : Osc :=
  match o.ostate with
  | .compute => o.computed (o.voice.wave k.W o.current)
  | .waiting => if ack = false then { o with rdy := true, ostate := .ready } else o
  | .ready => if ack = true then { o with rdy := false, ostate := .compute } else o

theorem oscComputeTri_wrap {k : Consts} {o : Osc} (hwrap : k.triPolicy = .wrap)
    (hp : 2 ≤ o.voice.period) :
    oscComputeTri k o = .next (o.computed (triangleSample k.W o.current o.voice.period)) := by
  have hhalf : o.voice.period / 2 ≠ 0 := by omega
  simp [oscComputeTri, hhalf, hwrap]

/-- An oscillator of a legal voice answers under the wrap policy, whatever `ack` (R116, R161). -/
theorem oscNext_eq_blockTick {k : Consts} {o : Osc} (hkind : o.voice.kindOk = true)
    (hperiod : o.voice.periodOk = true) (hwrap : k.triPolicy = .wrap) (ack : Bool) :
    oscNext k ack o = .next (o.blockTick k ack) := by
  have hk := (voice_kindOk_iff o.voice).mp hkind
  unfold oscNext Osc.blockTick
  cases hst : o.ostate with
  | compute =>
    obtain hsq | htri := hk
    · rw [(Osc.selects_iff _ o).mp ((Osc.selects_oscComputeSq o).mpr ⟨hsq, hst⟩)]
      simp [oscComputeSq, Voice.wave, hsq]
    · have hp : 2 ≤ o.voice.period := ((voice_periodOk_iff o.voice).mp hperiod).2 htri
      rw [(Osc.selects_iff _ o).mp ((Osc.selects_oscComputeTri o).mpr ⟨htri, hst⟩)]
      simp [oscComputeTri_wrap hwrap hp, Voice.wave, htri]
  | waiting =>
    rw [(Osc.selects_iff _ o).mp ((Osc.selects_oscWaiting o).mpr ⟨hk, hst⟩)]
    cases ack <;> rfl
  | ready =>
    rw [(Osc.selects_iff _ o).mp ((Osc.selects_oscReady o).mpr ⟨hk, hst⟩)]
    cases ack <;> rfl

theorem decode_osc_of_kindOk {o : Osc} (hkind : o.voice.kindOk = true) :
    ∃ i ∈ oscOps, decode o.selector = .ok i := by
  obtain hsq | htri := (voice_kindOk_iff o.voice).mp hkind
  · rw [decode_osc_square o hsq]
    cases o.ostate <;> exact ⟨_, by decide, rfl⟩
  · rw [decode_osc_triangle o htri]
    cases o.ostate <;> exact ⟨_, by decide, rfl⟩

/-- An oscillator operation is the one oscillator's tick of R116, done by each oscillator that selects
it with the snapshot's `ack`. -/
theorem exec_oscOp_eq_oscNext {i : Instr} (hi : i ∈ oscOps) (s : State) :
    exec i s = performOsc (Osc.selects i) (oscNext s.consts s.mixer.ack) s := by
  fin_cases hi <;>
    exact performOsc_congr (fun o ho => by simp [oscNext, (Osc.selects_iff _ o).mp ho]) s

/-- In a legal block under the wrap policy, each oscillator's operation answers, and leaves it the
record of R161. -/
theorem exec_osc_of_legal {s : State} (hlegal : s.legal = true) (hwrap : s.consts.triPolicy = .wrap)
    {o : Osc} (ho : o ∈ s.oscs) :
    ∃ i u, decode o.selector = .ok i ∧ exec i s = .next u ∧
      ∀ j : Nat, s.oscs[j]? = some o →
        u.oscs[j]? = some (o.blockTick s.consts s.mixer.ack) := by
  obtain ⟨hkind, -⟩ := legal_voice hlegal ho
  obtain ⟨i, hi, hdec⟩ := decode_osc_of_kindOk hkind
  have hrule : ∀ p ∈ s.oscs, p.selects i = true →
      oscNext s.consts s.mixer.ack p = .next (p.blockTick s.consts s.mixer.ack) := fun p hp _ =>
    have ⟨hk, hper⟩ := legal_voice hlegal hp
    oscNext_eq_blockTick hk hper hwrap _
  refine ⟨i, _, hdec, (exec_oscOp_eq_oscNext hi s).trans (performOsc_map hrule), fun j hj => ?_⟩
  simp [hj, (Osc.selects_iff i o).mpr hdec]

/-! ## The mixer's part of the tick -/

theorem allReady_iff (os : List Osc) : allReady os = true ↔ ∀ o ∈ os, o.rdy = true :=
  List.all_eq_true

/-- If there is an oscillator (MIX.SENDACK divides by N), the mixer's operation answers, and with
DIV.TICK's `div` it leaves the registers of R161. -/
theorem exec_mixer_of_N_pos {s : State} (hN : 0 < s.N) :
    ∃ i u, decode s.mixer.selector = .ok i ∧ exec i s = .next u ∧
      u.mixer.setDiv (nextCount s.mixer.div s.consts.D) = mixerBlockTick s s.txReadyIn := by
  have hdec := decode_mixer s.mixer
  unfold mixerBlockTick
  cases hst : s.mixer.mstate with
  | compute =>
    refine ⟨.mixCompute, _, by rw [hdec, hst],
      performMix_of_selects ((Mixer.selects_mixCompute _).mpr hst) rfl, ?_⟩
    simp only [State.setMixer_mixer, allReady_iff]
    split <;> rfl
  | sendack =>
    have hrule : mixSendack s.consts s.N s.txReadyIn s.mixer = .next _ := if_neg hN.ne'
    refine ⟨.mixSendack, _, by rw [hdec, hst],
      performMix_of_selects ((Mixer.selects_mixSendack _).mpr hst) hrule, ?_⟩
    simp only [State.setMixer_mixer]
    split <;> rfl
  | idle =>
    refine ⟨.mixIdle, _, by rw [hdec, hst],
      performMix_of_selects ((Mixer.selects_mixIdle _).mpr hst) rfl, ?_⟩
    simp only [State.setMixer_mixer]
    split_ifs <;> rfl

/-! ## The whole-block tick -/

/-- The mixer's part of a step, under either policy. -/
theorem step_mixer_of_N_pos {s t : State} (hN : 0 < s.N) (h : step s = .next t) :
    t.mixer = mixerBlockTick s s.txReadyIn := by
  obtain ⟨i, u, hdec, hexec, hmixer⟩ := exec_mixer_of_N_pos hN
  obtain ⟨u', d, hexec', hd, ht⟩ := step_mixer h hdec
  obtain rfl : u = u' := by simpa [hexec] using hexec'
  obtain rfl := exec_divTick_eq_next hd
  exact ht.trans hmixer

section
variable {s : State} (hlegal : s.legal = true) (hwrap : s.consts.triPolicy = .wrap)
include hlegal hwrap

theorem step_oscs_of_legal {t : State} (h : step s = .next t) :
    t.oscs = s.oscs.map (Osc.blockTick s.consts s.mixer.ack) := by
  refine List.ext_getElem? fun j => ?_
  rw [List.getElem?_map]
  cases hj : s.oscs[j]? with
  | none => simpa [step_oscs_length h] using hj
  | some o =>
    obtain ⟨i, u, hdec, hexec, hat⟩ := exec_osc_of_legal hlegal hwrap (List.mem_of_getElem? hj)
    obtain ⟨u', hexec', ht⟩ := step_osc h hj hdec
    obtain rfl : u = u' := by simpa [hexec] using hexec'
    rw [ht, hat j hj, Option.map_some]

theorem step_answers_of_legal : ∃ t, step s = .next t := by
  refine tick_answers (fun o ho => runSelector_answers ?_) (runSelector_answers ?_)
  · obtain ⟨i, u, hdec, hexec, -⟩ := exec_osc_of_legal hlegal hwrap ho
    exact ⟨i, u, hdec, hexec⟩
  · obtain ⟨i, u, hdec, hexec, -⟩ := exec_mixer_of_N_pos (legal_N_pos hlegal)
    exact ⟨i, u, hdec, hexec⟩

/-- What a legal step commits is each agent's part of R161. -/
theorem step_eq_blockTick :
    step s = .next { s with
      oscs := s.oscs.map (Osc.blockTick s.consts s.mixer.ack)
      mixer := mixerBlockTick s s.txReadyIn
      tick := s.tick + 1
      txBits := s.txBits.tail } := by
  obtain ⟨t, ht⟩ := step_answers_of_legal hlegal hwrap
  obtain ⟨hconsts, htick, hbits, hrest⟩ := step_consts_tick_stream ht
  rw [ht, ← step_oscs_of_legal hlegal hwrap ht, ← step_mixer_of_N_pos (legal_N_pos hlegal) ht,
    ← hconsts, ← htick, ← hbits, ← hrest]

end

/-- Settles O25: `Osc.blockTick` is the oscillators' part of R161 as the statement writes it out. -/
theorem stepIsWholeBlockTick : Obligations.StepIsWholeBlockTick :=
  fun _ hlegal hwrap => step_eq_blockTick hlegal hwrap

end Sys2Proof.Machine
end

section
/-! # The oscillator (40_oscillator.md)

What one oscillator does in a tick under a free `ack` (R116 to R128), and the handshake between the
oscillators and the mixer of a running block. A step that answers leaves the block in one determined
state whatever the policy, so what a running block keeps is shown once, of that state. -/

namespace Sys2Proof.Machine

/-! ## The counters and the sample functions -/

/-- The increment stays below the period (R114); with R146, `div` stays below D. -/
theorem nextCount_lt {c p : Nat} (h : c < p) : nextCount c p < p := by
  unfold nextCount
  split <;> omega

/-- The increment counts modulo the period. -/
theorem nextCount_mod (n : Nat) {p : Nat} (hp : 0 < p) : nextCount (n % p) p = (n + 1) % p := by
  have hlt : n % p < p := Nat.mod_lt n hp
  rw [← Nat.mod_add_mod]
  by_cases hlast : n % p + 1 = p
  · rw [nextCount_of_eq hlast, hlast, Nat.mod_self]
  · rw [nextCount_of_ne hlast]
    exact (Nat.mod_eq_of_lt (by omega)).symm

/-- Settles O23: a counter below the period stays below it. -/
theorem phaseIncrementWraps : Obligations.PhaseIncrementWraps :=
  fun _ _ h => ⟨nextCount_of_eq, nextCount_of_ne, nextCount_lt h, (nextCount_lt h).ne⟩

theorem maxSample_pos {W : Nat} (hW : 1 ≤ W) : 0 < maxSample W := by
  have hpow : 2 ^ 1 ≤ 2 ^ W := Nat.pow_le_pow_right (by decide) hW
  unfold maxSample
  omega

theorem squareSample_eq_max_iff {W : Nat} (hW : 1 ≤ W) (c p : Nat) :
    squareSample W c p = maxSample W ↔ p / 2 < c := by
  have hpos := maxSample_pos hW
  unfold squareSample
  split <;> omega

theorem squareSample_eq_zero_iff {W : Nat} (hW : 1 ≤ W) (c p : Nat) :
    squareSample W c p = 0 ↔ c ≤ p / 2 := by
  have hpos := maxSample_pos hW
  unfold squareSample
  split <;> omega

/-- How many numbers below `p` lie above a threshold. -/
theorem length_filter_range_lt (h p : Nat) :
    ((List.range p).filter fun c => decide (h < c)).length = p - h - 1 := by
  induction p with
  | zero => simp
  | succ p ih =>
    rw [List.range_succ, List.filter_append, List.length_append, ih, List.filter_singleton]
    by_cases hp : h < p
    · simp [hp]
      omega
    · simp [hp]
      omega

/-- Settles O19: the maximal samples are those at the positions above `period // 2`. -/
theorem squareHighSamplesPerCycle : Obligations.SquareHighSamplesPerCycle := by
  intro W p hW _
  refine ⟨?_, fun c _ => ⟨squareSample_eq_max_iff hW c p, squareSample_eq_zero_iff hW c p⟩,
    fun k => by rw [Nat.add_mod_right]⟩
  have hfilter : (fun c => squareSample W c p == maxSample W) = fun c => decide (p / 2 < c) := by
    funext c
    rw [Bool.eq_iff_iff, beq_iff_eq, decide_eq_true_iff, squareSample_eq_max_iff hW]
  rw [hfilter, length_filter_range_lt]

theorem wave_lt (W : Nat) (v : Voice) (c : Nat) : v.wave W c < 2 ^ W := by
  unfold Voice.wave
  cases v.kind with
  | triangle => exact triangleSample_lt W c v.period
  | square | sine | reserved => exact squareSample_lt W c v.period

/-- The narrowed average of a sum of N samples fits the output (R142). -/
theorem narrow_lt {W P N m : Nat} (hPW : P ≤ W) (hm : m ≤ N * maxSample W) :
    narrow W P N m < 2 ^ P := by
  have haverage : m / N < 2 ^ W :=
    calc m / N
      _ ≤ maxSample W := Nat.div_le_of_le_mul hm
      _ < 2 ^ W := maxSample_lt W
  rw [narrow, Nat.shiftRight_eq_div_pow]
  exact Nat.div_lt_of_lt_mul (by rwa [← pow_add, Nat.sub_add_cancel hPW])

/-! ## One oscillator's tick -/

/-- The FSM state an oscillator goes to under `ack` (R122). -/
def OState.after (ack : Bool) : OState → OState
  | .compute => .waiting
  | .waiting => if ack then .waiting else .ready
  | .ready => if ack then .compute else .ready

section
variable {k : Consts} {ack : Bool} {o : Osc}

theorem Osc.blockTick_of_compute (h : o.ostate = .compute) :
    o.blockTick k ack = o.computed (o.voice.wave k.W o.current) := by
  simp [Osc.blockTick, h]

theorem Osc.blockTick_of_waiting (h : o.ostate = .waiting) :
    o.blockTick k ack = if ack = false then { o with rdy := true, ostate := .ready } else o := by
  simp [Osc.blockTick, h]

theorem Osc.blockTick_of_ready (h : o.ostate = .ready) :
    o.blockTick k ack = if ack = true then { o with rdy := false, ostate := .compute } else o := by
  simp [Osc.blockTick, h]

@[simp] theorem Osc.blockTick_voice (k : Consts) (ack : Bool) (o : Osc) :
    (o.blockTick k ack).voice = o.voice := by
  unfold Osc.blockTick
  split
  · rfl
  · split <;> rfl
  · split <;> rfl

/-- The transitions read `ostate` and `ack` alone. -/
@[simp] theorem Osc.blockTick_ostate (k : Consts) (ack : Bool) (o : Osc) :
    (o.blockTick k ack).ostate = o.ostate.after ack := by
  cases hst : o.ostate with
  | compute => rw [Osc.blockTick_of_compute hst]; rfl
  | waiting => rw [Osc.blockTick_of_waiting hst]; cases ack <;> simp [OState.after, hst]
  | ready => rw [Osc.blockTick_of_ready hst]; cases ack <;> simp [OState.after, hst]

/-- `rdy` is written on leaving WAITING and on leaving READY (R120, R121). -/
theorem Osc.blockTick_rdy (k : Consts) (ack : Bool) (o : Osc) :
    (o.blockTick k ack).rdy =
      match o.ostate with
      | .compute => o.rdy
      | .waiting => if ack = false then true else o.rdy
      | .ready => if ack = true then false else o.rdy := by
  unfold Osc.blockTick
  cases o.ostate with
  | compute => rfl
  | waiting | ready => dsimp only; split <;> rfl

/-- Only OSC.COMPUTE writes the phase. -/
theorem Osc.blockTick_current_of_ne_compute (h : o.ostate ≠ .compute) :
    (o.blockTick k ack).current = o.current := by
  cases hst : o.ostate with
  | compute => exact absurd hst h
  | waiting => rw [Osc.blockTick_of_waiting hst]; split <;> rfl
  | ready => rw [Osc.blockTick_of_ready hst]; split <;> rfl

/-- Only OSC.COMPUTE writes the sample. -/
theorem Osc.blockTick_sample_of_ne_compute (h : o.ostate ≠ .compute) :
    (o.blockTick k ack).sample = o.sample := by
  cases hst : o.ostate with
  | compute => exact absurd hst h
  | waiting => rw [Osc.blockTick_of_waiting hst]; split <;> rfl
  | ready => rw [Osc.blockTick_of_ready hst]; split <;> rfl

/-- A READY oscillator holds its offer until it is acknowledged (R121). -/
theorem Osc.blockTick_of_offered (h : o.ostate = .ready) : o.blockTick k false = o := by
  simp [Osc.blockTick_of_ready h]

theorem oscNext_of_waiting (hkind : o.voice.kindOk = true) (hst : o.ostate = .waiting) :
    oscNext k ack o = .next (o.blockTick k ack) := by
  have hk := (voice_kindOk_iff o.voice).mp hkind
  rw [Osc.blockTick_of_waiting hst, oscNext,
    (Osc.selects_iff _ o).mp ((Osc.selects_oscWaiting o).mpr ⟨hk, hst⟩)]
  cases ack <;> rfl

theorem oscNext_of_ready (hkind : o.voice.kindOk = true) (hst : o.ostate = .ready) :
    oscNext k ack o = .next (o.blockTick k ack) := by
  have hk := (voice_kindOk_iff o.voice).mp hkind
  rw [Osc.blockTick_of_ready hst, oscNext,
    (Osc.selects_iff _ o).mp ((Osc.selects_oscReady o).mpr ⟨hk, hst⟩)]
  cases ack <;> rfl

/-- An oscillator whose selector names an operation is of a kind of the block (R99). -/
theorem kindOk_of_decode {i : Instr} (h : decode o.selector = .ok i) : o.voice.kindOk = true := by
  rw [voice_kindOk_iff]
  cases hk : o.voice.kind with
  | square => exact .inl rfl
  | triangle => exact .inr rfl
  | sine => exact nomatch (decode_osc_reserved o (.inl hk)).symm.trans h
  | reserved => exact nomatch (decode_osc_reserved o (.inr hk)).symm.trans h

theorem kindOk_of_oscNext {o' : Osc} (h : oscNext k ack o = .next o') : o.voice.kindOk = true := by
  cases hdec : decode o.selector with
  | ok i => exact kindOk_of_decode hdec
  | error e => simp [oscNext, hdec] at h

/-- What one oscillator's tick can do, under either policy: if it answers, with the record of R161. -/
theorem oscNext_eq_next {o' : Osc} (h : oscNext k ack o = .next o') : o' = o.blockTick k ack := by
  have hkind := kindOk_of_oscNext h
  cases hst : o.ostate with
  | compute =>
    rw [Osc.blockTick_of_compute hst]
    obtain hsq | htri := (voice_kindOk_iff o.voice).mp hkind
    · rw [oscNext, (Osc.selects_iff _ o).mp ((Osc.selects_oscComputeSq o).mpr ⟨hsq, hst⟩)] at h
      cases h
      simp [Voice.wave, hsq]
    · rw [oscNext, (Osc.selects_iff _ o).mp ((Osc.selects_oscComputeTri o).mpr ⟨htri, hst⟩)] at h
      simpa [Voice.wave, htri] using oscComputeTri_eq_next h
  | waiting =>
    rw [oscNext_of_waiting hkind hst] at h
    cases h
    rfl
  | ready =>
    rw [oscNext_of_ready hkind hst] at h
    cases h
    rfl

end

/-- Settles O35: the next `ostate` and the next `rdy` are functions of `ostate`, `rdy` and `ack`. -/
theorem transitionsIgnoreKindAndPhase : Obligations.TransitionsIgnoreKindAndPhase := by
  intro k k' a o p o' p' hstate hrdy ho hp
  obtain rfl := oscNext_eq_next ho
  obtain rfl := oscNext_eq_next hp
  exact ⟨by rw [Osc.blockTick_ostate, Osc.blockTick_ostate, hstate],
    by rw [Osc.blockTick_rdy, Osc.blockTick_rdy, hstate, hrdy]⟩

/-- Settles O36: a legal voice's tick answers, and each row of the table is one of the three equations
of `Osc.blockTick`. -/
theorem oscillatorTransitionTable : Obligations.OscillatorTransitionTable := by
  intro k a o hwrap hkind hperiod
  refine ⟨o.blockTick k a, oscNext_eq_blockTick hkind hperiod hwrap a, Osc.blockTick_voice k a o,
    fun hst => ?_, fun hst ha => ?_, fun hst ha => ?_, fun hst ha => ?_, fun hst ha => ?_⟩
  · simp [Osc.blockTick_of_compute hst]
  · simp [Osc.blockTick_of_waiting hst, ha]
  · simp [Osc.blockTick_of_waiting hst, ha]
  · simp [Osc.blockTick_of_ready hst, ha]
  · simp [Osc.blockTick_of_ready hst, ha]

/-- Settles O37: `rdy` falls only on an acknowledged READY, which leads to COMPUTE, and COMPUTE to
WAITING without a write to `rdy`. -/
theorem readyStaysLowTwoTicks : Obligations.ReadyStaysLowTwoTicks := by
  intro k a a' o o1 o2 hready hrdy h1 hlow h2
  have hst : o.ostate = .ready := hready.mp hrdy
  obtain rfl := oscNext_eq_next h1
  obtain rfl := oscNext_eq_next h2
  have ha : a = true := by
    by_contra hack
    rw [Bool.not_eq_true] at hack
    rw [hack, Osc.blockTick_of_offered hst, hrdy] at hlow
    exact nomatch hlow
  have hcompute : (o.blockTick k a).ostate = .compute := by
    simp [hst, ha, OState.after]
  rw [Osc.blockTick_of_compute hcompute]
  exact ⟨ha, hcompute, rfl, hlow⟩

/-! ## Runs of one oscillator -/

/-- An oscillator that a tick leaves as it is, no number of such ticks changes. -/
theorem oscRun_replicate_of_fixed {k : Consts} {a : Bool} {o : Osc} (h : oscNext k a o = .next o)
    (n : Nat) : oscRun k (List.replicate n a) o = .next o := by
  induction n with
  | zero => rfl
  | succ n ih => rw [List.replicate_succ, oscRun, h, bindNext_next, ih]

/-- The samples computed from phase `c mod period` on are the wave's values at `c`, `c + 1`, ...
modulo the period. -/
theorem oscSamples_eq_map_range' {k : Consts} (hwrap : k.triPolicy = .wrap) (acks : List Bool)
    {o : Osc} (hkind : o.voice.kindOk = true) (hperiod : o.voice.periodOk = true) {c : Nat}
    (hc : o.current = c % o.voice.period) :
    ∃ n, oscSamples k acks o =
      (List.range' c n).map fun m => o.voice.wave k.W (m % o.voice.period) := by
  induction acks generalizing o c with
  | nil => exact ⟨0, rfl⟩
  | cons a acks ih =>
    have hnext := oscNext_eq_blockTick hkind hperiod hwrap a
    have hvoice := Osc.blockTick_voice k a o
    have ih' := fun c' => ih (o := o.blockTick k a) (c := c') (by rwa [hvoice]) (by rwa [hvoice])
    simp only [hvoice] at ih'
    simp only [oscSamples, hnext]
    by_cases hst : o.ostate = .compute
    · have hpos : 0 < o.voice.period := ((voice_periodOk_iff o.voice).mp hperiod).1
      have htick : o.blockTick k a = o.computed (o.voice.wave k.W o.current) :=
        Osc.blockTick_of_compute hst
      obtain ⟨n, hn⟩ := ih' (c + 1) (by rw [htick, Osc.computed_current, hc, nextCount_mod c hpos])
      exact ⟨n + 1, by rw [hn, htick]; simp [hst, hc, List.range'_succ]⟩
    · obtain ⟨n, hn⟩ := ih' c (by rw [Osc.blockTick_current_of_ne_compute hst, hc])
      exact ⟨n, by simpa [hst] using hn⟩

/-- Settles O38: the oscillator starts at phase 0. -/
theorem oscillatorSamplesInOrder : Obligations.OscillatorSamplesInOrder := by
  intro k v acks hwrap hkind hperiod
  obtain ⟨n, hn⟩ := oscSamples_eq_map_range' hwrap acks (o := Osc.initial v) (c := 0) hkind hperiod
    (Nat.zero_mod _).symm
  rw [hn, List.length_map, List.length_range', List.range_eq_range']
  rfl

/-! ## The oscillator operations -/

/-- An oscillator operation as one map over the oscillators: `g` is its rule where an oscillator selects
it, and changes no other oscillator. -/
theorem performOsc_eq_map {sel : Osc → Bool} {f : Osc → Out Osc} {g : Osc → Osc} {s : State}
    (hsel : ∀ o ∈ s.oscs, sel o = true → f o = .next (g o))
    (hunsel : ∀ o ∈ s.oscs, sel o ≠ true → g o = o) :
    performOsc sel f s = .next { s with oscs := s.oscs.map g } := by
  have hmap : (s.oscs.map fun o => if sel o then g o else o) = s.oscs.map g := by
    refine List.map_congr_left fun o ho => ?_
    split
    next => rfl
    next hnot => exact (hunsel o ho hnot).symm
  rw [performOsc_map hsel, hmap, State.setOscs]

theorem Inv.rdy_eq_false {s : State} (h : Inv s) {o : Osc} (ho : o ∈ s.oscs)
    (hst : o.ostate ≠ .ready) : o.rdy = false := by
  rw [← Bool.not_eq_true, h.rdy o ho]
  exact hst

/-- Settles O7: an oscillator selects OSC.COMPUTE.SQ exactly if it is a square one in COMPUTE. -/
theorem computeSquareResult : Obligations.ComputeSquareResult := by
  refine ⟨rfl, fun s => performOsc_eq_map (fun o _ hsel => ?_) (fun o _ hnot => ?_),
    fun s hinv o ho hst => hinv.rdy_eq_false ho (by simp [hst])⟩
  · rw [if_pos ((Osc.selects_oscComputeSq o).mp hsel)]
    rfl
  · rw [if_neg (mt (Osc.selects_oscComputeSq o).mpr hnot)]

/-- Settles O10: an acknowledged WAITING oscillator is a fixed point of its tick. -/
theorem waitingResult : Obligations.WaitingResult := by
  refine ⟨rfl, rfl, fun s => performOsc_eq_map (fun o _ hsel => ?_) (fun o _ hnot => if_neg ?_),
    fun k o n hkind hst => oscRun_replicate_of_fixed ?_ n⟩
  · obtain ⟨hkind, hst⟩ := (Osc.selects_oscWaiting o).mp hsel
    cases hack : s.mixer.ack <;> simp [oscWaiting, Osc.setRdy, voice_kindOk_iff, hkind, hst]
  · rintro ⟨hkind, hst, -⟩
    exact hnot ((Osc.selects_oscWaiting o).mpr ⟨(voice_kindOk_iff _).mp hkind, hst⟩)
  · rw [oscNext_of_waiting hkind hst, Osc.blockTick_of_waiting hst]
    rfl

/-- Settles O11: an unacknowledged READY oscillator is a fixed point of its tick. -/
theorem readyResult : Obligations.ReadyResult := by
  refine ⟨rfl, rfl, fun s => performOsc_eq_map (fun o _ hsel => ?_) (fun o _ hnot => if_neg ?_),
    fun k o n hkind hst => oscRun_replicate_of_fixed ?_ n⟩
  · obtain ⟨hkind, hst⟩ := (Osc.selects_oscReady o).mp hsel
    cases hack : s.mixer.ack <;> simp [oscReady, Osc.setRdy, voice_kindOk_iff, hkind, hst]
  · rintro ⟨hkind, hst, -⟩
    exact hnot ((Osc.selects_oscReady o).mpr ⟨(voice_kindOk_iff _).mp hkind, hst⟩)
  · rw [oscNext_of_ready hkind hst, Osc.blockTick_of_offered hst]

/-! ## The input stream

Outside SENDACK no operation reads `tx_ready`, so every operation, and with them the tick, commutes
with a change of the stream. -/

/-- Replace the next values of the input stream. -/
def State.withTxBits (s : State) (bits : List Bool) : State := { s with txBits := bits }

@[simp] theorem State.withTxBits_oscs (s : State) (bits : List Bool) :
    (s.withTxBits bits).oscs = s.oscs := rfl
@[simp] theorem State.withTxBits_mixer (s : State) (bits : List Bool) :
    (s.withTxBits bits).mixer = s.mixer := rfl

/-- A computation, with the input stream of its state replaced. -/
def mapTxBits (r : Out State) (bits : List Bool) : Out State :=
  bindNext r fun u => .next (u.withTxBits bits)

theorem performOsc_withTxBits (sel : Osc → Bool) (f : Osc → Out Osc) (s : State)
    (bits : List Bool) :
    performOsc sel f (s.withTxBits bits) = mapTxBits (performOsc sel f s) bits := by
  unfold performOsc
  rw [State.withTxBits_oscs]
  cases mapOscs (fun o => if sel o then f o else .next o) s.oscs <;> rfl

theorem performMix_withTxBits (sel : Mixer → Bool) (f : Mixer → Out Mixer) (s : State)
    (bits : List Bool) :
    performMix sel f (s.withTxBits bits) = mapTxBits (performMix sel f s) bits := by
  unfold performMix
  rw [State.withTxBits_mixer]
  split
  · cases f s.mixer <;> rfl
  · rfl

theorem performMix_of_not_selects {sel : Mixer → Bool} {s : State} (hsel : ¬ sel s.mixer = true)
    (f : Mixer → Out Mixer) : performMix sel f s = .next s := by
  simp [performMix, hsel]

section
variable {s : State} (hst : s.mixer.mstate ≠ .sendack) (bits : List Bool)
include hst

/-- No operation but an enabled MIX.SENDACK reads the input (R59, R152). -/
theorem exec_withTxBits (i : Instr) :
    exec i (s.withTxBits bits) = mapTxBits (exec i s) bits := by
  cases i with
  | oscComputeSq | oscComputeTri | oscWaiting | oscReady => exact performOsc_withTxBits _ _ s bits
  | mixCompute | mixIdle => exact performMix_withTxBits _ _ s bits
  | divTick => exact performMix_withTxBits (fun _ => true) (divTick s.consts) s bits
  | mixSendack =>
    have hsel : ¬ s.mixer.selects .mixSendack = true := mt (Mixer.selects_mixSendack _).mp hst
    have hexec : exec .mixSendack s = .next s := performMix_of_not_selects hsel _
    rw [hexec]
    exact performMix_of_not_selects (s := s.withTxBits bits) hsel _

theorem runSelector_withTxBits (sel : Selector) :
    runSelector sel (s.withTxBits bits) = mapTxBits (runSelector sel s) bits := by
  cases hdec : decode sel with
  | ok i => rw [runSelector_ok hdec, runSelector_ok hdec, exec_withTxBits hst]
  | error e => rw [runSelector_error hdec, runSelector_error hdec]; rfl

theorem gatherOscs_withTxBits (j : Nat) (os : List Osc) :
    gatherOscs (s.withTxBits bits) j os = gatherOscs s j os := by
  induction os generalizing j with
  | nil => rfl
  | cons o os ih =>
    rw [gatherOscs, gatherOscs, runSelector_withTxBits hst, ih]
    cases runSelector o.selector s <;> rfl

/-- A tick outside SENDACK only moves the stream on. -/
theorem step_withTxBits :
    step (s.withTxBits bits) = mapTxBits (step s) bits.tail := by
  unfold step tick
  rw [runSelector_withTxBits hst, runSelector_withTxBits hst, State.withTxBits_oscs,
    State.withTxBits_mixer, gatherOscs_withTxBits hst]
  cases gatherOscs s 0 s.oscs with
  | fault _ | refused _ => rfl
  | next os =>
    cases runSelector s.mixer.selector s with
    | fault _ | refused _ => rfl
    | next m => cases runSelector divSelector s <;> rfl

end

/-- Settles O34: the two ticks are one tick with the stream replaced by the same tail. -/
theorem transportReadyOnlyMattersInSendack : Obligations.TransportReadyOnlyMattersInSendack :=
  fun _ b b' bits hst =>
    (step_withTxBits hst (b :: bits)).trans (step_withTxBits hst (b' :: bits)).symm

/-! ## The tick of the whole block, under either policy -/

/-- The state a tick leaves if it answers: every agent's part of R161. -/
def State.blockTick (s : State) : State :=
  { s with
    oscs := s.oscs.map (Osc.blockTick s.consts s.mixer.ack)
    mixer := mixerBlockTick s s.txReadyIn
    tick := s.tick + 1
    txBits := s.txBits.tail }

@[simp] theorem State.blockTick_consts (s : State) : s.blockTick.consts = s.consts := rfl
@[simp] theorem State.blockTick_oscs (s : State) :
    s.blockTick.oscs = s.oscs.map (Osc.blockTick s.consts s.mixer.ack) := rfl
@[simp] theorem State.blockTick_mixer (s : State) :
    s.blockTick.mixer = mixerBlockTick s s.txReadyIn := rfl
@[simp] theorem State.blockTick_tick (s : State) : s.blockTick.tick = s.tick + 1 := rfl
@[simp] theorem State.blockTick_N (s : State) : s.blockTick.N = s.N := by simp [State.N]

/-- An oscillator operation that answers did its rule on each oscillator that selects it. -/
theorem performOsc_getElem? {sel : Osc → Bool} {f : Osc → Out Osc} {s t : State}
    (h : performOsc sel f s = .next t) {j : Nat} {o : Osc} (hj : s.oscs[j]? = some o)
    (hsel : sel o = true) : ∃ o', f o = .next o' ∧ t.oscs[j]? = some o' := by
  obtain ⟨os, rfl, hall⟩ := performOsc_eq_next h
  obtain ⟨hlen, hrule⟩ := List.forall₂_iff_get.mp hall
  obtain ⟨hjs, rfl⟩ := List.getElem?_eq_some_iff.mp hj
  have hjos : j < os.length := hlen ▸ hjs
  exact ⟨os[j], by simpa [hsel] using hrule j hjs hjos, List.getElem?_eq_getElem hjos⟩

/-- In a step that answers, each oscillator does the one oscillator's tick of R116 with the snapshot's
`ack`. -/
theorem step_oscNext {s t : State} (h : step s = .next t) {j : Nat} {o : Osc}
    (hj : s.oscs[j]? = some o) :
    ∃ o', oscNext s.consts s.mixer.ack o = .next o' ∧ t.oscs[j]? = some o' := by
  obtain ⟨os, m, d, hos, -⟩ := tick_eq_next h
  obtain ⟨v, hv, -⟩ := gatherOscs_getElem? hos hj
  obtain ⟨i', hdec', -⟩ := runSelector_eq_next hv
  obtain ⟨i, hi, hdec⟩ := decode_osc_of_kindOk (kindOk_of_decode hdec')
  obtain ⟨u, hexec, hat⟩ := step_osc h hj hdec
  rw [hat]
  exact performOsc_getElem? ((exec_oscOp_eq_oscNext hi s).symm.trans hexec) hj
    ((Osc.selects_iff i o).mpr hdec)

theorem step_oscs {s t : State} (h : step s = .next t) :
    t.oscs = s.oscs.map (Osc.blockTick s.consts s.mixer.ack) := by
  refine List.ext_getElem? fun j => ?_
  rw [List.getElem?_map]
  cases hj : s.oscs[j]? with
  | none => simpa [step_oscs_length h] using hj
  | some o =>
    obtain ⟨o', ho, hat⟩ := step_oscNext h hj
    rw [hat, oscNext_eq_next ho, Option.map_some]

/-- What a step of a block with a voice can do, under either policy. -/
theorem step_eq_next {s t : State} (hN : 0 < s.N) (h : step s = .next t) : t = s.blockTick := by
  obtain ⟨hconsts, htick, hbits, hrest⟩ := step_consts_tick_stream h
  rw [State.blockTick, ← step_oscs h, ← step_mixer_of_N_pos hN h, ← htick, ← hbits, ← hconsts,
    ← hrest]

theorem step_of_legal {s : State} (hlegal : s.legal = true) (hwrap : s.consts.triPolicy = .wrap) :
    step s = .next s.blockTick := step_eq_blockTick hlegal hwrap

/-! ## The mixer's tick, branch by branch -/

section
variable {s : State} {r : Bool}

/-- MIX.COMPUTE latches the sum (R150). -/
theorem mixerBlockTick_latch (hst : s.mixer.mstate = .compute) (hrdy : ∀ o ∈ s.oscs, o.rdy = true) :
    mixerBlockTick s r = { s.mixer with
      div := nextCount s.mixer.div s.consts.D
      mixed := sampleSum s.oscs
      mstate := .sendack } := by
  simp only [mixerBlockTick, hst]
  rw [if_pos hrdy]
  rfl

/-- MIX.COMPUTE waits for a voice (R150). -/
theorem mixerBlockTick_wait (hst : s.mixer.mstate = .compute)
    (hrdy : ¬ ∀ o ∈ s.oscs, o.rdy = true) :
    mixerBlockTick s r = s.mixer.setDiv (nextCount s.mixer.div s.consts.D) := by
  simp [mixerBlockTick, hst, if_neg hrdy, Mixer.setDiv]

/-- MIX.SENDACK hands the byte over (R152). -/
theorem mixerBlockTick_handOver (hst : s.mixer.mstate = .sendack) :
    mixerBlockTick s true = { s.mixer with
      div := nextCount s.mixer.div s.consts.D
      ack := true
      outByte := narrow s.consts.W s.consts.P s.N s.mixer.mixed
      txAccept := true
      mstate := .idle } := by
  simp [mixerBlockTick, hst]

/-- MIX.SENDACK waits for the transport (R152). -/
theorem mixerBlockTick_stall (hst : s.mixer.mstate = .sendack) :
    mixerBlockTick s false =
      (s.mixer.setDiv (nextCount s.mixer.div s.consts.D)).setAck true := by
  simp [mixerBlockTick, hst, Mixer.setDiv, Mixer.setAck]

/-- MIX.IDLE retracts both handshakes (R155). -/
theorem mixerBlockTick_idle (hst : s.mixer.mstate = .idle) :
    mixerBlockTick s r = { s.mixer with
      div := nextCount s.mixer.div s.consts.D
      ack := false
      txAccept := false
      mstate := if s.mixer.div = 0 then .compute else .idle } := by
  simp only [mixerBlockTick, hst]
  split <;> simp [*]

/-- What holds in each of the five branches of the mixer's tick holds of what it leaves. -/
theorem mixerBlockTick_cases {P : Mixer → Prop}
    (latch : s.mixer.mstate = .compute → (∀ o ∈ s.oscs, o.rdy = true) →
      P { s.mixer with
        div := nextCount s.mixer.div s.consts.D, mixed := sampleSum s.oscs, mstate := .sendack })
    (wait : s.mixer.mstate = .compute → (¬ ∀ o ∈ s.oscs, o.rdy = true) →
      P (s.mixer.setDiv (nextCount s.mixer.div s.consts.D)))
    (handOver : s.mixer.mstate = .sendack → r = true →
      P { s.mixer with
        div := nextCount s.mixer.div s.consts.D, ack := true,
        outByte := narrow s.consts.W s.consts.P s.N s.mixer.mixed, txAccept := true,
        mstate := .idle })
    (stall : s.mixer.mstate = .sendack → r = false →
      P ((s.mixer.setDiv (nextCount s.mixer.div s.consts.D)).setAck true))
    (idle : s.mixer.mstate = .idle →
      P { s.mixer with
        div := nextCount s.mixer.div s.consts.D, ack := false, txAccept := false,
        mstate := if s.mixer.div = 0 then .compute else .idle }) :
    P (mixerBlockTick s r) := by
  cases hst : s.mixer.mstate with
  | compute =>
    by_cases hrdy : ∀ o ∈ s.oscs, o.rdy = true
    · rw [mixerBlockTick_latch hst hrdy]
      exact latch hst hrdy
    · rw [mixerBlockTick_wait hst hrdy]
      exact wait hst hrdy
  | sendack =>
    cases r with
    | true => rw [mixerBlockTick_handOver hst]; exact handOver hst rfl
    | false => rw [mixerBlockTick_stall hst]; exact stall hst rfl
  | idle => rw [mixerBlockTick_idle hst]; exact idle hst

@[simp] theorem mixerBlockTick_div (s : State) (r : Bool) :
    (mixerBlockTick s r).div = nextCount s.mixer.div s.consts.D :=
  mixerBlockTick_cases (P := fun m => m.div = nextCount s.mixer.div s.consts.D) (fun _ _ => rfl)
    (fun _ _ => rfl) (fun _ _ => rfl) (fun _ _ => rfl) (fun _ => rfl)

end

/-! ## What a running block keeps -/

theorem forall_blockTick_oscs {s : State} {P : Osc → Prop} :
    (∀ o ∈ s.blockTick.oscs, P o) ↔ ∀ o ∈ s.oscs, P (o.blockTick s.consts s.mixer.ack) := by
  simp

theorem legal_P_le_W {s : State} (h : s.legal = true) : s.consts.P ≤ s.consts.W := by
  obtain ⟨⟨-, hPW⟩, -⟩ := (cfg_wf_iff s.cfg).mp h
  exact hPW.le

theorem legal_D_pos {s : State} (h : s.legal = true) : 0 < s.consts.D := by
  obtain ⟨-, -, hD, -⟩ := (cfg_wf_iff s.cfg).mp h
  exact hD

/-- R119. -/
theorem Osc.blockTick_current_lt {o : Osc} (h : o.current < o.voice.period) (k : Consts)
    (ack : Bool) : (o.blockTick k ack).current < o.voice.period := by
  by_cases hst : o.ostate = .compute
  · rw [Osc.blockTick_of_compute hst]
    exact nextCount_lt h
  · rwa [Osc.blockTick_current_of_ne_compute hst]

/-- R37. -/
theorem Osc.blockTick_sample_lt {o : Osc} {k : Consts} (h : o.sample < 2 ^ k.W) (ack : Bool) :
    (o.blockTick k ack).sample < 2 ^ k.W := by
  by_cases hst : o.ostate = .compute
  · rw [Osc.blockTick_of_compute hst]
    exact wave_lt k.W o.voice o.current
  · rwa [Osc.blockTick_sample_of_ne_compute hst]

/-- R123. -/
theorem Osc.blockTick_rdy_iff {o : Osc} (h : o.rdy = true ↔ o.ostate = .ready) (k : Consts)
    (ack : Bool) : (o.blockTick k ack).rdy = true ↔ (o.blockTick k ack).ostate = .ready := by
  cases hst : o.ostate with
  | compute =>
    rw [Osc.blockTick_of_compute hst]
    simp [h, hst]
  | waiting =>
    rw [Osc.blockTick_of_waiting hst]
    split
    · simp
    · exact h
  | ready =>
    rw [Osc.blockTick_of_ready hst]
    split
    · simp
    · exact h

/-- A tick leads to IDLE by handing a byte over, which sets both handshakes, or by waiting there, which
clears both (R158, R159). -/
theorem blockTick_ack_eq_txAccept {s : State} : s.blockTick.mixer.mstate = .idle →
    s.blockTick.mixer.ack = s.blockTick.mixer.txAccept := by
  refine mixerBlockTick_cases (P := fun m => m.mstate = .idle → m.ack = m.txAccept)
    ?latch ?wait ?handOver ?stall ?idle
  case latch => exact fun _ _ hnext => nomatch hnext
  case wait => exact fun hst _ hnext => nomatch hst.symm.trans hnext
  case handOver => exact fun _ _ _ => rfl
  case stall => exact fun hst _ hnext => nomatch hst.symm.trans hnext
  case idle => exact fun _ _ => rfl

namespace Inv

variable {s : State} (h : Inv s)
include h

theorem N_pos : 0 < s.N := legal_N_pos h.legal

theorem ready_of_rdy (hrdy : ∀ o ∈ s.oscs, o.rdy = true) : ∀ o ∈ s.oscs, o.ostate = .ready :=
  fun o ho => (h.rdy o ho).mp (hrdy o ho)

theorem not_all_rdy_of_ostate_ne {o : Osc} (ho : o ∈ s.oscs) (hst : o.ostate ≠ .ready) :
    ¬ ∀ o ∈ s.oscs, o.rdy = true := fun hrdy => hst (h.ready_of_rdy hrdy o ho)

/-- The accumulator holds what it held, or the sum of this tick's samples (R151). -/
theorem blockTick_mixed_le : s.blockTick.mixer.mixed ≤ s.N * maxSample s.consts.W :=
  mixerBlockTick_cases (P := fun m => m.mixed ≤ s.N * maxSample s.consts.W)
    (fun _ _ => sampleSum_le h.sample) (fun _ _ => h.mixed) (fun _ _ => h.mixed)
    (fun _ _ => h.mixed) (fun _ => h.mixed)

/-- The byte is what it was, or a narrowed average (R142). -/
theorem blockTick_outByte_lt : s.blockTick.mixer.outByte < 2 ^ s.consts.P :=
  mixerBlockTick_cases (P := fun m => m.outByte < 2 ^ s.consts.P)
    (fun _ _ => h.outByte) (fun _ _ => h.outByte)
    (fun _ _ => narrow_lt (legal_P_le_W h.legal) h.mixed) (fun _ _ => h.outByte)
    (fun _ => h.outByte)

/-- A tick leads to COMPUTE by waiting there or by leaving IDLE, and either leaves both handshakes 0
(R157). -/
theorem blockTick_compute : s.blockTick.mixer.mstate = .compute →
    s.blockTick.mixer.ack = false ∧ s.blockTick.mixer.txAccept = false := by
  refine mixerBlockTick_cases
    (P := fun m => m.mstate = .compute → m.ack = false ∧ m.txAccept = false)
    ?latch ?wait ?handOver ?stall ?idle
  case latch => exact fun _ _ hnext => nomatch hnext
  case wait => exact fun hst _ _ => h.compute hst
  case handOver => exact fun _ _ hnext => nomatch hnext
  case stall => exact fun hst _ hnext => nomatch hst.symm.trans hnext
  case idle => exact fun _ _ => ⟨rfl, rfl⟩

/-- A tick leads to SENDACK by latching, which leaves every offer standing, or by waiting there, which
sets `ack` (R158, R165). -/
theorem blockTick_sendack : s.blockTick.mixer.mstate = .sendack →
    s.blockTick.mixer.txAccept = false ∧
      (s.blockTick.mixer.ack = false → ∀ o ∈ s.blockTick.oscs, o.ostate = .ready) := by
  refine mixerBlockTick_cases (P := fun m => m.mstate = .sendack →
    m.txAccept = false ∧ (m.ack = false → ∀ o ∈ s.blockTick.oscs, o.ostate = .ready))
    ?latch ?wait ?handOver ?stall ?idle
  case latch =>
    intro hst hrdy _
    obtain ⟨hack, haccept⟩ := h.compute hst
    refine ⟨haccept, fun _ => forall_blockTick_oscs.mpr fun o ho => ?_⟩
    have hready : o.ostate = .ready := h.ready_of_rdy hrdy o ho
    rw [hack, Osc.blockTick_of_offered hready, hready]
  case wait => exact fun hst _ hnext => nomatch hst.symm.trans hnext
  case handOver => exact fun _ _ hnext => nomatch hnext
  case stall =>
    intro hst _ _
    obtain ⟨haccept, -⟩ := h.sendack hst
    exact ⟨haccept, fun hack => nomatch hack⟩
  case idle =>
    intro _ hnext
    split at hnext <;> exact nomatch hnext

theorem blockTick : Inv s.blockTick where
  legal := by
    have hcfg : s.blockTick.cfg = s.cfg := by simp [State.cfg, Function.comp_def]
    rw [State.legal, hcfg]
    exact h.legal
  phase := forall_blockTick_oscs.mpr fun o ho => by
    rw [Osc.blockTick_voice]
    exact Osc.blockTick_current_lt (h.phase o ho) _ _
  sample := forall_blockTick_oscs.mpr fun o ho => Osc.blockTick_sample_lt (h.sample o ho) _
  rdy := forall_blockTick_oscs.mpr fun o ho => Osc.blockTick_rdy_iff (h.rdy o ho) _ _
  lockstep := forall_blockTick_oscs.mpr fun o ho => forall_blockTick_oscs.mpr fun o' ho' => by
    rw [Osc.blockTick_ostate, Osc.blockTick_ostate, h.lockstep o ho o' ho']
  mixed := by
    rw [State.blockTick_N]
    exact h.blockTick_mixed_le
  outByte := h.blockTick_outByte_lt
  div := by
    rw [State.blockTick_mixer, mixerBlockTick_div]
    exact nextCount_lt h.div
  divTick := by
    rw [State.blockTick_mixer, mixerBlockTick_div, h.divTick]
    exact nextCount_mod s.tick (legal_D_pos h.legal)
  compute := h.blockTick_compute
  sendack := h.blockTick_sendack
  idle := blockTick_ack_eq_txAccept

end Inv

/-- Settles O26: under either policy, a step that answers leaves the state of the whole-block tick. -/
theorem everyStepKeepsInvariant : Obligations.EveryStepKeepsInvariant := by
  intro s t hinv h
  rw [step_eq_next hinv.N_pos h]
  exact hinv.blockTick

/-- Settles O39: a ready oscillator is not in COMPUTE. -/
theorem sampleStableWhileReady : Obligations.SampleStableWhileReady := by
  intro s t hinv h j o o' ho ho' hrdy
  have hready : o.ostate = .ready := (hinv.rdy o (List.mem_of_getElem? ho)).mp hrdy
  have hat : o' = o.blockTick s.consts s.mixer.ack := by
    rw [step_oscs h, List.getElem?_map, ho] at ho'
    simpa using ho'.symm
  rw [hat, Osc.blockTick_sample_of_ne_compute (by simp [hready])]

/-! ## The handshake of a running block -/

namespace Inv

variable {s : State} (h : Inv s)
include h

theorem step_of_wrap (hwrap : s.consts.triPolicy = .wrap) : step s = .next s.blockTick :=
  step_of_legal h.legal hwrap

/-- Some oscillator shows the state all of them are in (R162). -/
theorem exists_ostate : ∃ st : OState, ∀ o ∈ s.oscs, o.ostate = st := by
  obtain ⟨o, ho⟩ := List.exists_mem_of_length_pos h.N_pos
  exact ⟨o.ostate, fun o' ho' => h.lockstep o' ho' o ho⟩

/-- A byte is handed over only from SENDACK (R159). -/
theorem blockTick_txAccept_of_ne_sendack (hst : s.mixer.mstate ≠ .sendack) :
    s.blockTick.mixer.txAccept = false := by
  refine mixerBlockTick_cases (P := fun m => m.txAccept = false)
    ?latch ?wait ?handOver ?stall ?idle
  case latch | wait =>
    intro hcompute _
    obtain ⟨-, haccept⟩ := h.compute hcompute
    exact haccept
  case handOver | stall => exact fun hsendack _ => absurd hsendack hst
  case idle => exact fun _ => rfl

/-- A hand-off tick is the first tick of IDLE, with `ack` 1 (R158, R159). -/
theorem idle_of_txAccept (haccept : s.mixer.txAccept = true) :
    s.mixer.mstate = .idle ∧ s.mixer.ack = true := by
  cases hst : s.mixer.mstate with
  | compute =>
    obtain ⟨-, hno⟩ := h.compute hst
    exact nomatch hno.symm.trans haccept
  | sendack =>
    obtain ⟨hno, -⟩ := h.sendack hst
    exact nomatch hno.symm.trans haccept
  | idle => exact ⟨rfl, (h.idle hst).trans haccept⟩

/-- After a tick with `ack` = 1 no oscillator is ready. -/
theorem not_all_rdy_blockTick (hack : s.mixer.ack = true) :
    ¬ ∀ o ∈ s.blockTick.oscs, o.rdy = true := by
  obtain ⟨o, ho⟩ := List.exists_mem_of_length_pos h.N_pos
  refine h.blockTick.not_all_rdy_of_ostate_ne (List.mem_map_of_mem ho) ?_
  rw [Osc.blockTick_ostate, hack]
  cases o.ostate <;> decide

end Inv

/-- SENDACK is entered only by latching (R150). -/
theorem blockTick_mstate_ne_sendack {s : State} (hst : s.mixer.mstate ≠ .sendack)
    (hwait : s.mixer.mstate = .compute → ¬ ∀ o ∈ s.oscs, o.rdy = true) :
    s.blockTick.mixer.mstate ≠ .sendack := by
  refine mixerBlockTick_cases (P := fun m => m.mstate ≠ .sendack)
    ?latch ?wait ?handOver ?stall ?idle
  case latch => exact fun hcompute hrdy => absurd hrdy (hwait hcompute)
  case wait => exact fun _ _ => hst
  case handOver => exact fun _ _ => nofun
  case stall => exact fun hsendack _ => absurd hsendack hst
  case idle =>
    intro _
    dsimp only
    split <;> nofun

/-- A run of a running block whose first step answers. -/
theorem runTicks_succ_of_inv {s t : State} (hinv : Inv s) {n : Nat}
    (h : runTicks (n + 1) s = .next t) : runTicks n s.blockTick = .next t := by
  obtain ⟨u, hu, h⟩ := bindNext_eq_next h
  rwa [step_eq_next hinv.N_pos hu] at h

/-- Settles O47: the tick after a hand-off is outside SENDACK; the one after that too, because that
`ack` left no oscillator ready; and a byte is handed over only from SENDACK. -/
theorem bytesAtLeastFourTicksApart : Obligations.BytesAtLeastFourTicksApart := by
  intro s hinv haccept n t hn hn3 hrun
  obtain ⟨hidle, hack⟩ := hinv.idle_of_txAccept haccept
  have hinv1 := hinv.blockTick
  have hinv2 := hinv1.blockTick
  have hst : s.mixer.mstate ≠ .sendack := by simp [hidle]
  have hst1 : s.blockTick.mixer.mstate ≠ .sendack :=
    blockTick_mstate_ne_sendack hst (by simp [hidle])
  have hst2 : s.blockTick.blockTick.mixer.mstate ≠ .sendack :=
    blockTick_mstate_ne_sendack hst1 fun _ => hinv.not_all_rdy_blockTick hack
  obtain rfl | rfl | rfl : n = 1 ∨ n = 2 ∨ n = 3 := by omega
  · cases runTicks_succ_of_inv hinv hrun
    exact hinv.blockTick_txAccept_of_ne_sendack hst
  · cases runTicks_succ_of_inv hinv1 (runTicks_succ_of_inv hinv hrun)
    exact hinv1.blockTick_txAccept_of_ne_sendack hst1
  · cases runTicks_succ_of_inv hinv2 (runTicks_succ_of_inv hinv1 (runTicks_succ_of_inv hinv hrun))
    exact hinv2.blockTick_txAccept_of_ne_sendack hst2

/-! ### From COMPUTE to the latch -/

/-- In how many ticks without `ack` an oscillator offers its sample. -/
def OState.ticksToReady : OState → Nat
  | .compute => 2
  | .waiting => 1
  | .ready => 0

theorem OState.ticksToReady_le (st : OState) : st.ticksToReady ≤ 2 := by
  cases st <;> decide

theorem OState.ticksToReady_after_false (st : OState) :
    (st.after false).ticksToReady = st.ticksToReady - 1 := by
  cases st <;> rfl

theorem OState.eq_ready_of_ticksToReady {st : OState} (h : st.ticksToReady = 0) : st = .ready := by
  cases st with
  | compute | waiting => exact nomatch h
  | ready => rfl

/-- The mixer in COMPUTE latches in exactly the `n`-th tick from now, `n` being the ticks the
oscillators need to be ready. -/
theorem latches_after_ticksToReady {n : Nat} {s : State} (hinv : Inv s)
    (hwrap : s.consts.triPolicy = .wrap) (hst : s.mixer.mstate = .compute)
    (hn : ∀ o ∈ s.oscs, o.ostate.ticksToReady = n) :
    ∃ t u, runTicks n s = .next t ∧ step t = .next u ∧
      (∀ o ∈ t.oscs, o.rdy = true) ∧ t.mixer.mstate = .compute ∧ u.mixer.mstate = .sendack ∧
      u.mixer.mixed = (t.oscs.map Osc.sample).sum ∧
      ∀ j < n, ∀ v, runTicks j s = .next v →
        v.mixer.mstate = .compute ∧ ¬ ∀ o ∈ v.oscs, o.rdy = true := by
  induction n generalizing s with
  | zero =>
    have hrdy : ∀ o ∈ s.oscs, o.rdy = true := fun o ho =>
      (hinv.rdy o ho).mpr (OState.eq_ready_of_ticksToReady (hn o ho))
    have hlatch := mixerBlockTick_latch (r := s.txReadyIn) hst hrdy
    refine ⟨s, s.blockTick, rfl, hinv.step_of_wrap hwrap, hrdy, hst, ?_, ?_,
      fun j hj => absurd hj (Nat.not_lt_zero j)⟩
    · rw [State.blockTick_mixer, hlatch]
    · rw [State.blockTick_mixer, hlatch, sampleSum]
  | succ n ih =>
    obtain ⟨hack, -⟩ := hinv.compute hst
    have hnot : ¬ ∀ o ∈ s.oscs, o.rdy = true := by
      obtain ⟨o, ho⟩ := List.exists_mem_of_length_pos hinv.N_pos
      refine hinv.not_all_rdy_of_ostate_ne ho fun hready => ?_
      have hzero := hn o ho
      rw [hready] at hzero
      exact nomatch hzero
    have hnext : s.blockTick.mixer.mstate = .compute := by
      rw [State.blockTick_mixer, mixerBlockTick_wait hst hnot, Mixer.setDiv_mstate, hst]
    have hcloser : ∀ o ∈ s.blockTick.oscs, o.ostate.ticksToReady = n :=
      forall_blockTick_oscs.mpr fun o ho => by
        rw [Osc.blockTick_ostate, hack, OState.ticksToReady_after_false, hn o ho,
          Nat.add_sub_cancel]
    obtain ⟨t, u, hrun, hstep, hrdy, ht, hu, hmixed, hbefore⟩ :=
      ih hinv.blockTick hwrap hnext hcloser
    refine ⟨t, u, (runTicks_of_step (hinv.step_of_wrap hwrap) n).trans hrun, hstep, hrdy, ht, hu,
      hmixed, fun j hj v hv => ?_⟩
    cases j with
    | zero =>
      cases hv
      exact ⟨hst, hnot⟩
    | succ j => exact hbefore j (by omega) v (runTicks_succ_of_inv hinv hv)

/-- Settles O43: in COMPUTE `ack` is 0, so the oscillators, all in one state, are ready within two
ticks. -/
theorem computeLastsAtMostThreeTicks : Obligations.ComputeLastsAtMostThreeTicks := by
  intro s hinv hwrap hst
  obtain ⟨st, hlock⟩ := hinv.exists_ostate
  exact ⟨st.ticksToReady, st.ticksToReady_le,
    latches_after_ticksToReady hinv hwrap hst fun o ho => by rw [hlock o ho]⟩

/-! ### From the latch to the release -/

/-- While `ack` is 0, READY oscillators hold their whole records (R121). -/
theorem blockTick_oscs_of_offered {s : State} (hack : s.mixer.ack = false)
    (hready : ∀ o ∈ s.oscs, o.ostate = .ready) : s.blockTick.oscs = s.oscs := by
  rw [State.blockTick_oscs, hack]
  exact (List.map_congr_left fun o ho => Osc.blockTick_of_offered (hready o ho)).trans
    (List.map_id s.oscs)

/-- No READY oscillator writes its sample. -/
theorem blockTick_samples_of_ready {s : State} (hready : ∀ o ∈ s.oscs, o.ostate = .ready) :
    s.blockTick.oscs.map Osc.sample = s.oscs.map Osc.sample := by
  rw [State.blockTick_oscs, List.map_map]
  refine List.map_congr_left fun o ho => ?_
  exact Osc.blockTick_sample_of_ne_compute (by simp [hready o ho])

/-- SENDACK sets `ack`, whatever the transport answers (R152). -/
theorem blockTick_ack_of_sendack {s : State} (hst : s.mixer.mstate = .sendack) :
    s.blockTick.mixer.ack = true := by
  rw [State.blockTick_mixer]
  cases s.txReadyIn with
  | true => rw [mixerBlockTick_handOver hst]
  | false => rw [mixerBlockTick_stall hst, Mixer.setAck_ack]

/-- Settles O44: the latch leaves `ack` 0 for one more tick, so the READY oscillators hold their records
for two ticks, and a third leads them to COMPUTE, which has not yet computed. -/
theorem releaseAfterLatch : Obligations.ReleaseAfterLatch := by
  intro s hinv hwrap hst hrdy
  obtain ⟨hack, -⟩ := hinv.compute hst
  have hready := hinv.ready_of_rdy hrdy
  have hlatch := mixerBlockTick_latch (r := s.txReadyIn) hst hrdy
  have hst1 : s.blockTick.mixer.mstate = .sendack := by rw [State.blockTick_mixer, hlatch]
  have hmixed : s.blockTick.mixer.mixed = (s.oscs.map Osc.sample).sum := by
    rw [State.blockTick_mixer, hlatch, sampleSum]
  have hack1 : s.blockTick.mixer.ack = false := by rw [State.blockTick_mixer, hlatch, ← hack]
  have hoscs1 : s.blockTick.oscs = s.oscs := blockTick_oscs_of_offered hack hready
  have hready1 : ∀ o ∈ s.blockTick.oscs, o.ostate = .ready := by rwa [hoscs1]
  have hoscs2 : s.blockTick.blockTick.oscs = s.oscs :=
    (blockTick_oscs_of_offered hack1 hready1).trans hoscs1
  have hready2 : ∀ o ∈ s.blockTick.blockTick.oscs, o.ostate = .ready := by rwa [hoscs2]
  refine ⟨_, _, _, hinv.step_of_wrap hwrap, hinv.blockTick.step_of_wrap hwrap,
    hinv.blockTick.blockTick.step_of_wrap hwrap, hst1, hmixed, hack1, blockTick_ack_of_sendack hst1,
    hready1, hready2, by rw [hoscs1], by rw [hoscs2], ?_⟩
  rw [blockTick_samples_of_ready hready2, hoscs2]

/-! ### A transport that is never ready again -/

/-- A running block in SENDACK whose transport is never ready again. -/
structure Stalled (s : State) : Prop where
  inv : Inv s
  wrap : s.consts.triPolicy = .wrap
  sendack : s.mixer.mstate = .sendack
  never : ∀ n, s.txReadyAfter n = false

theorem txReadyAfter_zero (s : State) : s.txReadyAfter 0 = s.txReadyIn := by
  unfold State.txReadyAfter State.txReadyIn
  cases s.txBits <;> rfl

theorem blockTick_txReadyAfter (s : State) (n : Nat) :
    s.blockTick.txReadyAfter n = s.txReadyAfter (n + 1) := by
  have htick : s.blockTick.tick + n = s.tick + (n + 1) := by
    rw [State.blockTick_tick, Nat.add_assoc, Nat.add_comm 1]
  have hbits : s.blockTick.txBits[n]? = s.txBits[n + 1]? := List.getElem?_tail
  unfold State.txReadyAfter
  rw [hbits, htick]
  rfl

/-- In how many ticks of a stalled block an oscillator comes to wait, given `ack`; while `ack` is 0,
it is not yet released. -/
def OState.ticksToPark : Bool → OState → Nat
  | false, _ => 3
  | true, .ready => 2
  | true, .compute => 1
  | true, .waiting => 0

theorem OState.ticksToPark_le (ack : Bool) (st : OState) : st.ticksToPark ack ≤ 3 := by
  cases ack <;> cases st <;> decide

theorem OState.eq_waiting_of_ticksToPark {ack : Bool} {st : OState} (h : st.ticksToPark ack = 0) :
    st = .waiting := by
  cases ack with
  | false => exact nomatch h
  | true =>
    cases st with
    | compute | ready => exact nomatch h
    | waiting => rfl

namespace Stalled

variable {s : State} (h : Stalled s)
include h

theorem mixer_blockTick : s.blockTick.mixer =
    (s.mixer.setDiv (nextCount s.mixer.div s.consts.D)).setAck true := by
  rw [State.blockTick_mixer, ← txReadyAfter_zero, h.never 0, mixerBlockTick_stall h.sendack]

theorem blockTick : Stalled s.blockTick where
  inv := h.inv.blockTick
  wrap := h.wrap
  sendack := by
    rw [h.mixer_blockTick]
    exact h.sendack
  never n := by rw [blockTick_txReadyAfter, h.never]

/-- Each tick brings every oscillator closer to WAITING: until `ack` is seen all of them are READY. -/
theorem ticksToPark_blockTick {o : Osc} (ho : o ∈ s.oscs) :
    (o.ostate.after s.mixer.ack).ticksToPark true ≤ o.ostate.ticksToPark s.mixer.ack - 1 := by
  cases hack : s.mixer.ack with
  | false =>
    obtain ⟨-, hready⟩ := h.inv.sendack h.sendack
    rw [hready hack o ho]
    decide
  | true => cases o.ostate <;> decide

/-- A stalled block stays stalled; it writes nothing of the mixer but `div` and `ack`, and brings
its oscillators to WAITING. -/
theorem run {d : Nat} (hd : ∀ o ∈ s.oscs, o.ostate.ticksToPark s.mixer.ack ≤ d) (n : Nat) :
    ∃ t, runTicks n s = .next t ∧ Stalled t ∧ t.mixer.mixed = s.mixer.mixed ∧
      t.mixer.outByte = s.mixer.outByte ∧ (1 ≤ n ∨ s.mixer.ack = true → t.mixer.ack = true) ∧
      ∀ o ∈ t.oscs, o.ostate.ticksToPark t.mixer.ack ≤ d - n := by
  induction n generalizing s d with
  | zero => exact ⟨s, rfl, h, rfl, rfl, by simp, hd⟩
  | succ n ih =>
    have hmixer := h.mixer_blockTick
    have hack : s.blockTick.mixer.ack = true := by rw [hmixer, Mixer.setAck_ack]
    have hcloser : ∀ o ∈ s.blockTick.oscs, o.ostate.ticksToPark s.blockTick.mixer.ack ≤ d - 1 :=
      forall_blockTick_oscs.mpr fun o ho => by
        rw [Osc.blockTick_ostate, hack]
        exact (h.ticksToPark_blockTick ho).trans (Nat.sub_le_sub_right (hd o ho) 1)
    obtain ⟨t, hrun, ht, hmixed, hbyte, hacked, hpark⟩ := ih h.blockTick hcloser
    refine ⟨t, (runTicks_of_step (h.inv.step_of_wrap h.wrap) n).trans hrun, ht, ?_, ?_,
      fun _ => hacked (.inr hack), fun o ho => ?_⟩
    · rw [hmixed, hmixer, Mixer.setAck_mixed, Mixer.setDiv_mixed]
    · rw [hbyte, hmixer, Mixer.setAck_outByte, Mixer.setDiv_outByte]
    · exact (hpark o ho).trans (by omega)

end Stalled

/-- Settles O49: every oscillator is at most three ticks from WAITING, and waits there unoffered. -/
theorem stalledTransportHoldsSendack : Obligations.StalledTransportHoldsSendack := by
  intro s hinv hwrap hst hnever n
  obtain ⟨t, hrun, ht, hmixed, hbyte, hack, hpark⟩ :=
    Stalled.run ⟨hinv, hwrap, hst, hnever⟩ (fun o _ => o.ostate.ticksToPark_le s.mixer.ack) n
  obtain ⟨haccept, -⟩ := ht.inv.sendack ht.sendack
  refine ⟨t, hrun, ht.sendack, haccept, hmixed, hbyte, fun hn => hack (.inl hn), fun hn o ho => ?_⟩
  have hle := hpark o ho
  have hwaiting : o.ostate = .waiting :=
    OState.eq_waiting_of_ticksToPark (ack := t.mixer.ack) (by omega)
  exact ⟨hwaiting, ht.inv.rdy_eq_false ho (by simp [hwaiting])⟩

end Sys2Proof.Machine
end

section
/-! # The mixer (41_mixer.md): its operations

The narrowing of R141 and R142, the operations MIX.COMPUTE, MIX.SENDACK and DIV.TICK, and the two
handshake registers that a tick leaves. -/

namespace Sys2Proof.Machine

/-! ## The narrowing -/

theorem narrow_eq_div (W P N m : Nat) : narrow W P N m = m / N / 2 ^ (W - P) :=
  Nat.shiftRight_eq_div_pow _ _

theorem average_le_maxSample {W N m : Nat} (hm : m ≤ N * maxSample W) : m / N ≤ maxSample W :=
  Nat.div_le_of_le_mul hm

theorem testBit_narrow (W P N m b : Nat) :
    (narrow W P N m).testBit b = (m / N).testBit (W - P + b) :=
  Nat.testBit_shiftRight _

/-- The top P bits of a word of W ones are P ones. -/
theorem maxSample_shiftRight {W P : Nat} (hPW : P ≤ W) : maxSample W >>> (W - P) = 2 ^ P - 1 := by
  refine Nat.eq_of_testBit_eq fun b => ?_
  have hbit : W - P + b < W ↔ b < P := by omega
  simp [maxSample, Nat.testBit_two_pow_sub_one, hbit]

/-- Settles O20: the average is at most the largest sample, and shifting keeps the order. -/
theorem narrowFitsOutputByte : Obligations.NarrowFitsOutputByte := by
  intro W P N m hP hPW _ hm
  have haverage := average_le_maxSample hm
  have hshift : narrow W P N m ≤ maxSample W >>> (W - P) := by
    rw [narrow_eq_div, Nat.shiftRight_eq_div_pow]
    exact Nat.div_le_div_right haverage
  exact ⟨haverage, hshift, maxSample_shiftRight hPW.le, narrow_lt hPW.le hm, by omega, by omega⟩

/-- Settles O21: the bits from P on are zero because the narrowed value is below `2 ^ P`. -/
theorem narrowIsTopBitsOfAverage : Obligations.NarrowIsTopBitsOfAverage := by
  intro W P N m _ hPW _ hm
  refine ⟨narrow_eq_div W P N m, fun b _ => testBit_narrow W P N m b, fun b hb => ?_⟩
  refine Nat.testBit_lt_two_pow ?_
  calc narrow W P N m
    _ < 2 ^ P := narrow_lt hPW.le hm
    _ ≤ 2 ^ b := Nat.pow_le_pow_right (by decide) hb

/-! ## The operations of the mixer -/

/-- A mixer operation as one update of the mixer's registers: `m` is what its rule leaves if the mixer
selects it, and the old registers if not. -/
theorem performMix_eq_update {sel : Mixer → Bool} {f : Mixer → Out Mixer} {s : State} {m : Mixer}
    (hsel : sel s.mixer = true → f s.mixer = .next m)
    (hunsel : ¬ sel s.mixer = true → m = s.mixer) :
    performMix sel f s = .next { s with mixer := m } := by
  by_cases h : sel s.mixer = true
  · exact performMix_of_selects h (hsel h)
  · rw [hunsel h]
    exact performMix_of_not_selects h f

/-- The samples of a running block sum to a number that the accumulator holds (R17, R151). -/
theorem Inv.sampleSum_lt {s : State} (h : Inv s) :
    sampleSum s.oscs < 2 ^ accWidth s.consts.W s.N :=
  (sampleSum_le h.sample).trans_lt (mul_maxSample_lt_two_pow_accWidth _ h.N_pos)

/-- Settles O12: the mixer selects MIX.COMPUTE exactly in COMPUTE. -/
theorem mixComputeResult : Obligations.MixComputeResult := by
  refine ⟨rfl, fun s => performMix_eq_update (fun hsel => ?_) (fun hnot => if_neg ?_),
    fun s hinv => ⟨fun hst => ?_, hinv.sampleSum_lt⟩⟩
  · have hst := (Mixer.selects_mixCompute _).mp hsel
    simp only [mixCompute, allReady_iff, hst, true_and]
    rfl
  · rintro ⟨hst, -⟩
    exact hnot ((Mixer.selects_mixCompute _).mpr hst)
  · obtain ⟨hack, -⟩ := hinv.compute hst
    exact hack

/-- Settles O13: the mixer selects MIX.SENDACK exactly in SENDACK, and with a voice the average is
defined. -/
theorem mixSendackResult : Obligations.MixSendackResult := by
  intro s hN
  refine performMix_eq_update (fun hsel => ?_) (fun hnot => if_neg ?_)
  · have hrule : mixSendack s.consts s.N s.txReadyIn s.mixer = .next _ :=
      if_neg (Nat.one_le_iff_ne_zero.mp hN)
    rw [hrule, if_pos ((Mixer.selects_mixSendack _).mp hsel), narrow_eq_div]
    rfl
  · exact fun hst => hnot ((Mixer.selects_mixSendack _).mpr hst)

/-- DIV.TICK runs on every tick, whatever the other agents do (R146). -/
theorem step_div {s t : State} (h : step s = .next t) :
    t.mixer.div = nextCount s.mixer.div s.consts.D := by
  obtain ⟨os, m, d, -, -, hd, rfl⟩ := tick_eq_next h
  obtain rfl := exec_divTick_eq_next hd
  rfl

/-- Settles O15: `div` counts as `nextCount` does, in the operation and in every step. -/
theorem divTickResult : Obligations.DivTickResult := by
  refine ⟨rfl, fun s => rfl, fun s t h => step_div h, fun s t hdiv h => ?_⟩
  have hlt : t.mixer.div < s.consts.D := by
    rw [step_div h]
    exact nextCount_lt hdiv
  exact ⟨hlt, by omega⟩

/-! ## The handshakes a tick leaves -/

/-- `ack` follows a SENDACK tick (R158). -/
theorem Inv.blockTick_ack_iff {s : State} (h : Inv s) :
    s.blockTick.mixer.ack = true ↔ s.mixer.mstate = .sendack := by
  refine mixerBlockTick_cases (P := fun m => m.ack = true ↔ s.mixer.mstate = .sendack)
    ?latch ?wait ?handOver ?stall ?idle
  case latch | wait =>
    intro hst _
    obtain ⟨hack, -⟩ := h.compute hst
    simp [hst, hack]
  case handOver | stall => exact fun hst _ => by simp [hst]
  case idle => exact fun hst => by simp [hst]

/-- `tx_accept` follows a SENDACK tick with `tx_ready` = 1 (R159). -/
theorem Inv.blockTick_txAccept_iff {s : State} (h : Inv s) :
    s.blockTick.mixer.txAccept = true ↔ s.mixer.mstate = .sendack ∧ s.txReadyIn = true := by
  by_cases hst : s.mixer.mstate = .sendack
  · obtain ⟨haccept, -⟩ := h.sendack hst
    rw [State.blockTick_mixer]
    cases s.txReadyIn with
    | true => simp [mixerBlockTick_handOver hst, hst]
    | false => simp [mixerBlockTick_stall hst, haccept]
  · have haccept := h.blockTick_txAccept_of_ne_sendack hst
    exact iff_of_false (by rw [haccept]; decide) fun ⟨hsendack, _⟩ => hst hsendack

/-- A SENDACK tick leads to IDLE exactly if the transport is ready (R152). -/
theorem blockTick_idle_iff {s : State} (hst : s.mixer.mstate = .sendack) :
    s.blockTick.mixer.mstate = .idle ↔ s.txReadyIn = true := by
  rw [State.blockTick_mixer]
  cases s.txReadyIn with
  | true => simp [mixerBlockTick_handOver hst]
  | false => simp [mixerBlockTick_stall hst, hst]

/-- The byte handed over is the narrowed sum (R141, R152). -/
theorem blockTick_outByte_of_handOver {s : State} (hst : s.mixer.mstate = .sendack)
    (hready : s.txReadyIn = true) :
    s.blockTick.mixer.outByte = narrow s.consts.W s.consts.P s.N s.mixer.mixed := by
  rw [State.blockTick_mixer, hready, mixerBlockTick_handOver hst]

/-- Settles O40: both handshakes tell of a SENDACK tick, `tx_accept` of one with `tx_ready` = 1. -/
theorem ackAndAcceptFollowSendack : Obligations.AckAndAcceptFollowSendack := by
  intro s t hinv h
  obtain rfl := step_eq_next hinv.N_pos h
  refine ⟨hinv.blockTick_ack_iff, ?_, fun haccept => ?_⟩
  · rw [hinv.blockTick_txAccept_iff]
    exact and_congr_right fun hst => (blockTick_idle_iff hst).symm
  · obtain ⟨hst, hready⟩ := hinv.blockTick_txAccept_iff.mp haccept
    exact ⟨hready, blockTick_outByte_of_handOver hst hready⟩

end Sys2Proof.Machine
end

section
/-! # Runs of the mixer (41_mixer.md)

A run of a running block, under either policy, is an iteration of the whole-block tick; under the wrap
policy every tick answers. -/

namespace Sys2Proof.Machine

/-! ## A run as an iteration of the tick -/

@[simp] theorem blockTick_cfg (s : State) : s.blockTick.cfg = s.cfg := by
  simp [State.cfg, Function.comp_def]

section
variable {s : State} (h : Inv s)
include h

theorem Inv.iterate_blockTick (n : Nat) : Inv (State.blockTick^[n] s) :=
  Function.Iterate.rec Inv h (fun _ => Inv.blockTick) n

/-- What a run can do, under either policy. -/
theorem Inv.runTicks_eq_next {n : Nat} {t : State} (hrun : runTicks n s = .next t) :
    t = State.blockTick^[n] s := by
  induction n generalizing s with
  | zero =>
    cases hrun
    rfl
  | succ n ih => exact ih h.blockTick (runTicks_succ_of_inv h hrun)

theorem Inv.runTicks_of_wrap (hwrap : s.consts.triPolicy = .wrap) (n : Nat) :
    runTicks n s = .next (State.blockTick^[n] s) := by
  induction n generalizing s with
  | zero => rfl
  | succ n ih => exact (runTicks_of_step (h.step_of_wrap hwrap) n).trans (ih h.blockTick hwrap)

end

@[simp] theorem iterate_blockTick_consts (n : Nat) (s : State) :
    (State.blockTick^[n] s).consts = s.consts :=
  Function.Iterate.rec (fun t : State => t.consts = s.consts) rfl
    (fun t ht => (State.blockTick_consts t).trans ht) n

@[simp] theorem iterate_blockTick_tick (n : Nat) (s : State) :
    (State.blockTick^[n] s).tick = s.tick + n := by
  induction n with
  | zero => rfl
  | succ n ih => rw [Function.iterate_succ_apply', State.blockTick_tick, ih, Nat.add_assoc]

@[simp] theorem iterate_blockTick_txReadyAfter (n m : Nat) (s : State) :
    (State.blockTick^[n] s).txReadyAfter m = s.txReadyAfter (n + m) := by
  induction n generalizing m with
  | zero => rw [Nat.zero_add, Function.iterate_zero_apply]
  | succ n ih =>
    rw [Function.iterate_succ_apply', blockTick_txReadyAfter, ih, Nat.succ_add, Nat.add_succ]

/-! ## The block at tick 0 -/

section
variable (c : Cfg) (bits : List Bool) (rest : Option Bool)

@[simp] theorem cfg_ofCfg : (State.ofCfg c bits rest).cfg = c := by
  simp [State.ofCfg, State.cfg, Function.comp_def]

@[simp] theorem ofCfg_consts_D : (State.ofCfg c bits rest).consts.D = c.D := rfl
@[simp] theorem ofCfg_tick : (State.ofCfg c bits rest).tick = 0 := rfl
@[simp] theorem ofCfg_mixer : (State.ofCfg c bits rest).mixer = Mixer.initial := rfl

variable {c bits rest}

theorem forall_ofCfg_oscs {P : Osc → Prop} :
    (∀ o ∈ (State.ofCfg c bits rest).oscs, P o) ↔ ∀ v ∈ c.voices, P (Osc.initial v) := by
  simp [State.ofCfg]

/-- A legal configuration starts a running block (D3). -/
theorem inv_ofCfg (hc : c.wf = true) : Inv (State.ofCfg c bits rest) where
  legal := by rwa [State.legal, cfg_ofCfg]
  phase := forall_ofCfg_oscs.mpr fun v hv => by
    obtain ⟨-, -, -, -, hperiod⟩ := (cfg_wf_iff c).mp hc
    exact ((voice_periodOk_iff v).mp (hperiod v hv)).1
  sample := forall_ofCfg_oscs.mpr fun _ _ => Nat.two_pow_pos _
  rdy := forall_ofCfg_oscs.mpr fun _ _ => by simp [Osc.initial]
  lockstep := forall_ofCfg_oscs.mpr fun _ _ => forall_ofCfg_oscs.mpr fun _ _ => rfl
  mixed := Nat.zero_le _
  outByte := Nat.two_pow_pos _
  div := by
    obtain ⟨-, -, hD, -⟩ := (cfg_wf_iff c).mp hc
    exact hD
  divTick := (Nat.zero_mod _).symm
  compute := fun _ => ⟨rfl, rfl⟩
  sendack := nofun
  idle := nofun

end

/-! ## The clock divider -/

/-- Settles O41: `div` of a running block is the tick number modulo D. -/
theorem dividerCountsTicks : Obligations.DividerCountsTicks := by
  intro c bits rest n t hc hrun
  have hinv := inv_ofCfg (bits := bits) (rest := rest) hc
  obtain rfl := hinv.runTicks_eq_next hrun
  have htick : (State.blockTick^[n] (State.ofCfg c bits rest)).tick = n := by simp
  refine ⟨htick, ?_⟩
  rw [(hinv.iterate_blockTick n).divTick, htick, iterate_blockTick_consts, ofCfg_consts_D]

/-- A tick leads to COMPUTE from elsewhere only through IDLE, with `div` 0 in the snapshot (R155). -/
theorem blockTick_enters_compute {s : State} (hst : s.mixer.mstate ≠ .compute) :
    s.blockTick.mixer.mstate = .compute → s.mixer.mstate = .idle ∧ s.mixer.div = 0 := by
  refine mixerBlockTick_cases
    (P := fun m => m.mstate = .compute → s.mixer.mstate = .idle ∧ s.mixer.div = 0)
    ?latch ?wait ?handOver ?stall ?idle
  case latch | wait => exact fun hcompute => absurd hcompute hst
  case handOver => exact fun _ _ hnext => nomatch hnext
  case stall => exact fun hsendack _ hnext => nomatch hsendack.symm.trans hnext
  case idle =>
    intro hidle hnext
    refine ⟨hidle, ?_⟩
    by_contra hdiv
    simp [hdiv] at hnext

/-- A COMPUTE phase is entered in a tick that begins a sample period. -/
theorem Inv.dvd_tick_of_enters_compute {s : State} (h : Inv s) (hst : s.mixer.mstate ≠ .compute)
    (hnext : s.blockTick.mixer.mstate = .compute) : s.consts.D ∣ s.tick := by
  obtain ⟨-, hdiv⟩ := blockTick_enters_compute hst hnext
  exact Nat.dvd_of_mod_eq_zero (h.divTick.symm.trans hdiv)

/-- Settles O45: two ticks that begin a sample period are a multiple of D apart. -/
theorem computeStartsAtPeriodBoundary : Obligations.ComputeStartsAtPeriodBoundary := by
  refine ⟨fun s t hinv h hst hnext => ?_, ?_⟩
  · obtain rfl := step_eq_next hinv.N_pos h
    obtain ⟨hidle, -⟩ := blockTick_enters_compute hst hnext
    have hmod := Nat.mod_eq_zero_of_dvd (hinv.dvd_tick_of_enters_compute hst hnext)
    refine ⟨hidle, hmod, ?_⟩
    rw [State.blockTick_tick, ← Nat.mod_add_mod, hmod, Nat.zero_add]
  · intro s t t' u u' m n hinv _ hrunt ht htidle ht' hrunu hu huidle hu'
    obtain rfl := hinv.runTicks_eq_next hrunt
    obtain rfl := hinv.runTicks_eq_next hrunu
    have hinvt := hinv.iterate_blockTick m
    have hinvu := hinv.iterate_blockTick n
    obtain rfl := step_eq_next hinvt.N_pos ht
    obtain rfl := step_eq_next hinvu.N_pos hu
    have hm : s.consts.D ∣ s.tick + m := by
      simpa using hinvt.dvd_tick_of_enters_compute (by simp [htidle]) ht'
    have hn : s.consts.D ∣ s.tick + n := by
      simpa using hinvu.dvd_tick_of_enters_compute (by simp [huidle]) hu'
    simpa [Nat.add_sub_add_left] using Nat.dvd_sub hn hm

/-! ## A voice held not ready (the harness of R170, log 14) -/

/-- A legal block in COMPUTE with no byte handed over: what the harness, which breaks the tie of `rdy`
to READY, leaves of the invariant. -/
structure ForcedCompute (s : State) : Prop where
  legal : s.legal = true
  wrap : s.consts.triPolicy = .wrap
  compute : s.mixer.mstate = .compute
  accept : s.mixer.txAccept = false

@[simp] theorem forceNotReady_mixer (i : Nat) (s : State) :
    (forceNotReady i s).mixer = s.mixer := rfl

@[simp] theorem forceNotReady_consts (i : Nat) (s : State) :
    (forceNotReady i s).consts = s.consts := rfl

/-- The harness overrides no kind and no period. -/
@[simp] theorem forceNotReady_cfg (i : Nat) (s : State) : (forceNotReady i s).cfg = s.cfg := by
  have hvoices : (s.oscs.modify i fun o => o.setRdy false).map Osc.voice = s.oscs.map Osc.voice := by
    refine List.ext_getElem? fun j => ?_
    rw [List.getElem?_map, List.getElem?_map, List.getElem?_modify]
    cases s.oscs[j]? with
    | none => rfl
    | some o => split <;> rfl
  simp [State.cfg, forceNotReady, hvoices]

@[simp] theorem forceNotReady_N (i : Nat) (s : State) : (forceNotReady i s).N = s.N := by
  rw [← State.cfg_N, forceNotReady_cfg, State.cfg_N]

/-- The mixer sees the overridden wire. -/
theorem not_all_rdy_forceNotReady {i : Nat} {s : State} (hi : i < s.N) :
    ¬ ∀ o ∈ (forceNotReady i s).oscs, o.rdy = true := by
  intro hrdy
  have hmem : s.oscs[i].setRdy false ∈ (forceNotReady i s).oscs :=
    List.mem_of_getElem? (i := i) (by simp [forceNotReady, List.getElem?_eq_getElem hi])
  exact nomatch hrdy _ hmem

namespace ForcedCompute

variable {s : State} (h : ForcedCompute s)
include h

theorem force (i : Nat) : ForcedCompute (forceNotReady i s) where
  legal := by
    rw [State.legal, forceNotReady_cfg]
    exact h.legal
  wrap := h.wrap
  compute := h.compute
  accept := h.accept

/-- A tick with a voice not ready writes nothing of the mixer but `div`. -/
theorem mixer_blockTick (hnot : ¬ ∀ o ∈ s.oscs, o.rdy = true) :
    s.blockTick.mixer = s.mixer.setDiv (nextCount s.mixer.div s.consts.D) := by
  rw [State.blockTick_mixer, mixerBlockTick_wait h.compute hnot]

theorem blockTick (hnot : ¬ ∀ o ∈ s.oscs, o.rdy = true) : ForcedCompute s.blockTick where
  legal := by
    rw [State.legal, blockTick_cfg]
    exact h.legal
  wrap := h.wrap
  compute := by
    rw [h.mixer_blockTick hnot]
    exact h.compute
  accept := by
    rw [h.mixer_blockTick hnot]
    exact h.accept

theorem runForced {i : Nat} (hi : i < s.N) (n : Nat) :
    ∃ t, runForced i n s = .next t ∧ ForcedCompute t ∧ t.mixer.outByte = s.mixer.outByte := by
  induction n generalizing s with
  | zero => exact ⟨_, rfl, h.force i, rfl⟩
  | succ n ih =>
    have hforced := h.force i
    have hnot := not_all_rdy_forceNotReady hi
    obtain ⟨t, hrun, ht, hbyte⟩ := ih (hforced.blockTick hnot) (by simpa using hi)
    refine ⟨t, ?_, ht, ?_⟩
    · rw [Machine.runForced, step_of_legal hforced.legal hforced.wrap, bindNext_next, hrun]
    · rw [hbyte, hforced.mixer_blockTick hnot, Mixer.setDiv_outByte, forceNotReady_mixer]

end ForcedCompute

/-- Settles O50: the mixer waits in COMPUTE for the overridden wire. -/
theorem forcedVoiceStallsMixer : Obligations.ForcedVoiceStallsMixer := by
  intro s i hinv hwrap hi hst n
  obtain ⟨-, haccept⟩ := hinv.compute hst
  obtain ⟨t, hrun, ht, hbyte⟩ := ForcedCompute.runForced ⟨hinv.legal, hwrap, hst, haccept⟩ hi n
  exact ⟨t, hrun, ht.compute, ht.accept, hbyte⟩

end Sys2Proof.Machine
end

section
/-! # The rounds of the mixer (41_mixer.md section 5)

Every round ends in SENDACK: in how many ticks is a number that falls by one with each tick, whatever the
transport does. With a transport that is ready again and again, each SENDACK ends in a byte; with one
that is always ready, each SENDACK is one tick long. -/

namespace Sys2Proof.Machine

/-! ## Until the next SENDACK tick -/

/-- In how many ticks an oscillator offers its sample, given the snapshot's `ack`, if `ack` is 0 from the
next tick on. -/
def OState.ticksToOffer (ack : Bool) (st : OState) : Nat :=
  if ack then (st.after true).ticksToReady + 1 else st.ticksToReady

theorem OState.ticksToOffer_false_after (ack : Bool) (st : OState) :
    (st.after ack).ticksToOffer false = st.ticksToOffer ack - 1 := by
  cases ack with
  | false => exact OState.ticksToReady_after_false st
  | true => rfl

/-- In how many ticks the divider's snapshot value is 0. -/
def ticksToBoundary (D div : Nat) : Nat := if div = 0 then 0 else D - div

@[simp] theorem ticksToBoundary_zero (D : Nat) : ticksToBoundary D 0 = 0 := rfl

theorem ticksToBoundary_of_pos (D : Nat) {div : Nat} (h : 0 < div) :
    ticksToBoundary D div = D - div := if_neg h.ne'

theorem ticksToBoundary_nextCount {D div : Nat} (hpos : 0 < div) (hlt : div < D) :
    ticksToBoundary D (nextCount div D) + 1 = ticksToBoundary D div := by
  rw [ticksToBoundary_of_pos D hpos]
  by_cases hlast : div + 1 = D
  · rw [nextCount_of_eq hlast, ticksToBoundary_zero]
    omega
  · rw [nextCount_of_ne hlast, ticksToBoundary_of_pos D (Nat.succ_pos div)]
    omega

/-- In how many ticks the mixer is in SENDACK, with the oscillators in `st`. -/
def Mixer.ticksToSendack (m : Mixer) (D : Nat) (st : OState) : Nat :=
  match m.mstate with
  | .compute => st.ticksToOffer m.ack + 1
  | .sendack => 0
  | .idle => max (ticksToBoundary D m.div + 1) (st.ticksToOffer m.ack) + 1

theorem Mixer.ticksToSendack_of_compute {m : Mixer} (hst : m.mstate = .compute) (D : Nat)
    (st : OState) : m.ticksToSendack D st = st.ticksToOffer m.ack + 1 := by
  rw [Mixer.ticksToSendack, hst]

theorem Mixer.ticksToSendack_of_idle {m : Mixer} (hst : m.mstate = .idle) (D : Nat)
    (st : OState) : m.ticksToSendack D st =
      max (ticksToBoundary D m.div + 1) (st.ticksToOffer m.ack) + 1 := by
  rw [Mixer.ticksToSendack, hst]

theorem Mixer.ticksToSendack_eq_zero_iff {m : Mixer} {D : Nat} {st : OState} :
    m.ticksToSendack D st = 0 ↔ m.mstate = .sendack := by
  unfold Mixer.ticksToSendack
  cases m.mstate <;> simp

/-- The mixer is in SENDACK in `n` ticks, as every oscillator tells. -/
def State.SendackIn (s : State) (n : Nat) : Prop :=
  ∀ o ∈ s.oscs, s.mixer.ticksToSendack s.consts.D o.ostate = n

namespace Inv

variable {s : State} (h : Inv s)
include h

/-- An oscillator not ready holds the latch back, and then none is ready (R162). -/
theorem one_le_ticksToReady (hnot : ¬ ∀ o ∈ s.oscs, o.rdy = true) {o : Osc} (ho : o ∈ s.oscs) :
    1 ≤ o.ostate.ticksToReady := by
  by_contra hzero
  refine hnot fun o' ho' => (h.rdy o' ho').mpr ?_
  rw [h.lockstep o' ho' o ho]
  exact OState.eq_ready_of_ticksToReady (by omega)

/-- A tick outside SENDACK leaves `ack` 0. -/
theorem blockTick_ack_of_ne_sendack (hst : s.mixer.mstate ≠ .sendack) :
    s.blockTick.mixer.ack = false := by
  rw [← Bool.not_eq_true, h.blockTick_ack_iff]
  exact hst

/-- A tick outside SENDACK brings SENDACK one tick closer. -/
theorem ticksToSendack_blockTick (hst : s.mixer.mstate ≠ .sendack) {o : Osc} (ho : o ∈ s.oscs) :
    s.blockTick.mixer.ticksToSendack s.consts.D (o.ostate.after s.mixer.ack) + 1 =
      s.mixer.ticksToSendack s.consts.D o.ostate := by
  have hack := h.blockTick_ack_of_ne_sendack hst
  have hoffer := OState.ticksToOffer_false_after s.mixer.ack o.ostate
  cases hm : s.mixer.mstate with
  | sendack => exact absurd hm hst
  | compute =>
    obtain ⟨hack0, -⟩ := h.compute hm
    rw [Mixer.ticksToSendack_of_compute hm]
    by_cases hrdy : ∀ o ∈ s.oscs, o.rdy = true
    · have hnext : s.blockTick.mixer.mstate = .sendack := by
        rw [State.blockTick_mixer, mixerBlockTick_latch hm hrdy]
      rw [Mixer.ticksToSendack_eq_zero_iff.mpr hnext, h.ready_of_rdy hrdy o ho, hack0]
      rfl
    · have hnext : s.blockTick.mixer.mstate = .compute := by
        rw [State.blockTick_mixer, mixerBlockTick_wait hm hrdy, Mixer.setDiv_mstate, hm]
      have hpos : 1 ≤ o.ostate.ticksToOffer s.mixer.ack := by
        rw [hack0]
        exact h.one_le_ticksToReady hrdy ho
      rw [Mixer.ticksToSendack_of_compute hnext, hack]
      omega
  | idle =>
    rw [Mixer.ticksToSendack_of_idle hm]
    by_cases hdiv : s.mixer.div = 0
    · have hnext : s.blockTick.mixer.mstate = .compute := by
        rw [State.blockTick_mixer, mixerBlockTick_idle hm, if_pos hdiv]
      rw [Mixer.ticksToSendack_of_compute hnext, hack, hdiv, ticksToBoundary_zero]
      omega
    · have hnext : s.blockTick.mixer.mstate = .idle := by
        rw [State.blockTick_mixer, mixerBlockTick_idle hm, if_neg hdiv]
      have hboundary := ticksToBoundary_nextCount (Nat.pos_of_ne_zero hdiv) h.div
      rw [Mixer.ticksToSendack_of_idle hnext, hack, State.blockTick_mixer, mixerBlockTick_div]
      omega

theorem exists_sendackIn : ∃ n, s.SendackIn n := by
  obtain ⟨st, hlock⟩ := h.exists_ostate
  exact ⟨s.mixer.ticksToSendack s.consts.D st, fun o ho => by rw [hlock o ho]⟩

theorem sendack_of_sendackIn_zero (hn : s.SendackIn 0) : s.mixer.mstate = .sendack := by
  obtain ⟨o, ho⟩ := List.exists_mem_of_length_pos h.N_pos
  exact Mixer.ticksToSendack_eq_zero_iff.mp (hn o ho)

theorem ne_sendack_of_sendackIn_succ {n : Nat} (hn : s.SendackIn (n + 1)) :
    s.mixer.mstate ≠ .sendack := by
  intro hst
  obtain ⟨o, ho⟩ := List.exists_mem_of_length_pos h.N_pos
  exact nomatch (hn o ho).symm.trans (Mixer.ticksToSendack_eq_zero_iff.mpr hst)

theorem sendackIn_blockTick {n : Nat} (hn : s.SendackIn (n + 1)) : s.blockTick.SendackIn n :=
  forall_blockTick_oscs.mpr fun o ho => by
    have hstep := h.ticksToSendack_blockTick (h.ne_sendack_of_sendackIn_succ hn) ho
    rw [hn o ho] at hstep
    rw [Osc.blockTick_ostate, State.blockTick_consts]
    exact Nat.succ_inj.mp hstep

/-- The first SENDACK tick from now on is the one `SendackIn` names. -/
theorem iterate_sendack_iff {n : Nat} (hn : s.SendackIn n) {j : Nat} (hj : j ≤ n) :
    (State.blockTick^[j] s).mixer.mstate = .sendack ↔ j = n := by
  induction n generalizing s j with
  | zero =>
    obtain rfl : j = 0 := by omega
    simpa using h.sendack_of_sendackIn_zero hn
  | succ n ih =>
    cases j with
    | zero => simpa using h.ne_sendack_of_sendackIn_succ hn
    | succ j =>
      rw [Function.iterate_succ_apply, ih h.blockTick (h.sendackIn_blockTick hn) (by omega)]
      exact Nat.succ_inj.symm

/-! ## A transport that is ready again and again -/

theorem exists_iterate_sendack : ∃ n, (State.blockTick^[n] s).mixer.mstate = .sendack := by
  obtain ⟨n, hn⟩ := h.exists_sendackIn
  exact ⟨n, (h.iterate_sendack_iff hn le_rfl).mpr rfl⟩

/-- From SENDACK, the byte is handed over at the transport's next ready tick at the latest. -/
theorem exists_iterate_txAccept_of_sendack (hst : s.mixer.mstate = .sendack) {m : Nat}
    (hready : s.txReadyAfter m = true) : ∃ n, (State.blockTick^[n] s).mixer.txAccept = true := by
  induction m generalizing s with
  | zero => exact ⟨1, h.blockTick_txAccept_iff.mpr ⟨hst, (txReadyAfter_zero s).symm.trans hready⟩⟩
  | succ m ih =>
    cases hin : s.txReadyIn with
    | true => exact ⟨1, h.blockTick_txAccept_iff.mpr ⟨hst, hin⟩⟩
    | false =>
      have hnext : s.blockTick.mixer.mstate = .sendack := by
        rw [State.blockTick_mixer, hin, mixerBlockTick_stall hst]
        exact hst
      obtain ⟨n, hn⟩ := ih h.blockTick hnext ((blockTick_txReadyAfter s m).trans hready)
      exact ⟨n + 1, hn⟩

theorem exists_iterate_txAccept (hready : ∀ n, ∃ m ≥ n, s.txReadyAfter m = true) :
    ∃ n, (State.blockTick^[n] s).mixer.txAccept = true := by
  obtain ⟨k, hst⟩ := h.exists_iterate_sendack
  obtain ⟨m, hm, hat⟩ := hready k
  obtain ⟨n, hn⟩ := (h.iterate_blockTick k).exists_iterate_txAccept_of_sendack hst (m := m - k)
    (by rwa [iterate_blockTick_txReadyAfter, Nat.add_sub_cancel' hm])
  exact ⟨n + k, by rwa [Function.iterate_add_apply]⟩

end Inv

/-- Settles O51: from every tick on the block reaches SENDACK, and there a byte. -/
theorem readyTransportGetsBytesForever : Obligations.ReadyTransportGetsBytesForever := by
  intro s hinv hwrap hready n
  have hlater : ∀ k, ∃ m ≥ k, (State.blockTick^[n] s).txReadyAfter m = true := by
    intro k
    obtain ⟨m, hm, hat⟩ := hready (n + k)
    refine ⟨m - n, by omega, ?_⟩
    rwa [iterate_blockTick_txReadyAfter, Nat.add_sub_cancel' (by omega)]
  obtain ⟨m, hm⟩ := (hinv.iterate_blockTick n).exists_iterate_txAccept hlater
  refine ⟨m + n, Nat.le_add_left n m, _, hinv.runTicks_of_wrap hwrap (m + n), ?_⟩
  rwa [Function.iterate_add_apply]

/-! ## A transport that is always ready -/

/-- A running block whose transport is always ready: SENDACK never outlasts the tick before `ack`, so
a hand-off tick finds the oscillators READY. -/
structure Flowing (s : State) : Prop where
  inv : Inv s
  always : ∀ n, s.txReadyAfter n = true
  sendack : s.mixer.mstate = .sendack → s.mixer.ack = false
  accept : s.mixer.txAccept = true → ∀ o ∈ s.oscs, o.ostate = .ready

/-- The ticks from a byte in tick `t` to the next one: the divider's next 0, then COMPUTE entered,
latch and hand-over, or the handshake of the oscillators if that takes longer. -/
def byteGap (D t : Nat) : Nat := max (ticksToBoundary D (t % D) + 3) 5

theorem byteGap_of_mod_pos {D t : Nat} (h : 0 < t % D) : byteGap D t = max (D - t % D + 3) 5 := by
  rw [byteGap, ticksToBoundary_of_pos D h]

theorem five_le_byteGap (D t : Nat) : 5 ≤ byteGap D t := le_max_right _ _

namespace Flowing

variable {s : State} (h : Flowing s)
include h

theorem txReadyIn_eq_true : s.txReadyIn = true := (txReadyAfter_zero s).symm.trans (h.always 0)

theorem blockTick_txAccept_iff : s.blockTick.mixer.txAccept = true ↔ s.mixer.mstate = .sendack := by
  rw [h.inv.blockTick_txAccept_iff]
  exact and_iff_left h.txReadyIn_eq_true

theorem blockTick : Flowing s.blockTick where
  inv := h.inv.blockTick
  always n := (blockTick_txReadyAfter s n).trans (h.always (n + 1))
  sendack := by
    intro hnext
    refine h.inv.blockTick_ack_of_ne_sendack fun hst => ?_
    exact nomatch hnext.symm.trans ((blockTick_idle_iff hst).mpr h.txReadyIn_eq_true)
  accept := by
    intro haccept
    have hst := h.blockTick_txAccept_iff.mp haccept
    have hack := h.sendack hst
    obtain ⟨-, hready⟩ := h.inv.sendack hst
    rw [blockTick_oscs_of_offered hack (hready hack)]
    exact hready hack

theorem iterate_blockTick (n : Nat) : Flowing (State.blockTick^[n] s) :=
  Function.Iterate.rec Flowing h (fun _ => Flowing.blockTick) n

/-- The first byte after this tick is handed over one tick after the next SENDACK tick. -/
theorem iterate_txAccept_iff {n : Nat} (hn : s.SendackIn n) {j : Nat} (hj : j ≤ n) :
    (State.blockTick^[j + 1] s).mixer.txAccept = true ↔ j = n := by
  rw [Function.iterate_succ_apply', (h.iterate_blockTick j).blockTick_txAccept_iff]
  exact h.inv.iterate_sendack_iff hn hj

/-- A hand-off tick is in IDLE, with `ack` 1 and the oscillators READY. -/
theorem sendackIn_of_txAccept (haccept : s.mixer.txAccept = true) :
    s.SendackIn (byteGap s.consts.D s.tick - 1) := by
  intro o ho
  obtain ⟨hidle, hack⟩ := h.inv.idle_of_txAccept haccept
  have hoffer : OState.ready.ticksToOffer true = 3 := rfl
  rw [Mixer.ticksToSendack_of_idle hidle, hack, h.accept haccept o ho, hoffer, h.inv.divTick,
    byteGap]
  omega

/-- After a byte the next one is `byteGap` ticks later. -/
theorem next_byte_iff {m n : Nat} (haccept : (State.blockTick^[m] s).mixer.txAccept = true)
    (hlt : m < n) (hle : n ≤ m + byteGap s.consts.D (s.tick + m)) :
    (State.blockTick^[n] s).mixer.txAccept = true ↔ n = m + byteGap s.consts.D (s.tick + m) := by
  obtain ⟨j, rfl⟩ := Nat.exists_eq_add_of_lt hlt
  have hsendack := (h.iterate_blockTick m).sendackIn_of_txAccept haccept
  rw [iterate_blockTick_consts, iterate_blockTick_tick] at hsendack
  rw [Nat.add_assoc, Nat.add_comm m, Function.iterate_add_apply,
    (h.iterate_blockTick m).iterate_txAccept_iff hsendack (by omega)]
  omega

end Flowing

/-- A property of the ticks that first holds at `b 0`, and after `b k` next at `b (k + 1)`, holds
exactly at the values of `b`. -/
theorem iff_exists_of_next {P : Nat → Prop} {b : Nat → Nat} (hmono : StrictMono b)
    (hfirst : ∀ n ≤ b 0, P n ↔ n = b 0)
    (hnext : ∀ k n, P (b k) → b k < n → n ≤ b (k + 1) → (P n ↔ n = b (k + 1))) (n : Nat) :
    P n ↔ ∃ k, n = b k := by
  have hupto : ∀ k, ∀ n ≤ b k, P n ↔ ∃ i ≤ k, n = b i := by
    intro k
    induction k with
    | zero => simpa using hfirst
    | succ k ih =>
      intro n hn
      by_cases hle : n ≤ b k
      · rw [ih n hle]
        refine ⟨fun ⟨i, hi, hni⟩ => ⟨i, by omega, hni⟩, fun ⟨i, _, hni⟩ => ⟨i, ?_, hni⟩⟩
        exact hmono.le_iff_le.mp (hni ▸ hle)
      · have hk : P (b k) := (ih (b k) le_rfl).mpr ⟨k, le_rfl, rfl⟩
        rw [hnext k n hk (by omega) hn]
        refine ⟨fun hni => ⟨k + 1, le_rfl, hni⟩, fun ⟨i, hi, hni⟩ => ?_⟩
        have hlt : k < i := hmono.lt_iff_lt.mp (by omega)
        rwa [show i = k + 1 by omega] at hni
  rw [hupto n n hmono.le_apply]
  exact ⟨fun ⟨k, _, hk⟩ => ⟨k, hk⟩, fun ⟨k, hk⟩ => ⟨k, hk ▸ hmono.le_apply, hk⟩⟩

section
variable {c : Cfg} {bits : List Bool} {rest : Option Bool} (hc : c.wf = true)
  (halways : ∀ n, (State.ofCfg c bits rest).txReadyAfter n = true)
include hc halways

theorem flowing_ofCfg : Flowing (State.ofCfg c bits rest) where
  inv := inv_ofCfg hc
  always := halways
  sendack := nofun
  accept := nofun

/-- The first byte is handed over in tick 4: the block starts in COMPUTE with its oscillators in
COMPUTE (D3). -/
theorem ofCfg_first_byte {n : Nat} (hn : n ≤ 4) :
    (State.blockTick^[n] (State.ofCfg c bits rest)).mixer.txAccept = true ↔ n = 4 := by
  cases n with
  | zero => exact ⟨nofun, nofun⟩
  | succ n =>
    have hsendack : (State.ofCfg c bits rest).SendackIn 3 := forall_ofCfg_oscs.mpr fun _ _ => rfl
    rw [(flowing_ofCfg hc halways).iterate_txAccept_iff hsendack (by omega)]
    omega

/-- The byte ticks from construction are the ticks 4, 4 + byteGap 4, ... -/
theorem ofCfg_byte_ticks {b : Nat → Nat} (hzero : b 0 = 4)
    (hgap : ∀ k, b (k + 1) = b k + byteGap c.D (b k)) {n : Nat} {t : State}
    (hrun : runTicks n (State.ofCfg c bits rest) = .next t) :
    t.mixer.txAccept = true ↔ ∃ k, n = b k := by
  have hflow := flowing_ofCfg hc halways
  obtain rfl := hflow.inv.runTicks_eq_next hrun
  have hmono : StrictMono b := strictMono_nat_of_lt_succ fun k => by
    have hpos := five_le_byteGap c.D (b k)
    rw [hgap]
    omega
  refine iff_exists_of_next (P := fun n =>
    (State.blockTick^[n] (State.ofCfg c bits rest)).mixer.txAccept = true) hmono
    (fun n hn => ?_) (fun k n hk hlt hle => ?_) n
  · rw [hzero] at hn ⊢
    exact ofCfg_first_byte hc halways hn
  · have hnext := hflow.next_byte_iff hk hlt
    rw [ofCfg_tick, Nat.zero_add, ofCfg_consts_D, ← hgap] at hnext
    exact hnext hle

end

/-- The byte ticks of R168 for D >= 6. -/
def slowByteTick (D k : Nat) : Nat := if k = 0 then 4 else k * D + 3

theorem slowByteTick_succ {D : Nat} (hD : 6 ≤ D) (k : Nat) :
    slowByteTick D (k + 1) = slowByteTick D k + byteGap D (slowByteTick D k) := by
  cases k with
  | zero =>
    have hmod : slowByteTick D 0 % D = 4 := Nat.mod_eq_of_lt (by omega : 4 < D)
    rw [byteGap_of_mod_pos (by omega), hmod]
    rw [slowByteTick, slowByteTick, if_neg (Nat.succ_ne_zero 0), if_pos rfl]
    omega
  | succ k =>
    have hmod : slowByteTick D (k + 1) % D = 3 := by
      rw [slowByteTick, if_neg k.succ_ne_zero, Nat.mul_add_mod_of_lt (by omega)]
    rw [byteGap_of_mod_pos (by omega), hmod]
    rw [slowByteTick, slowByteTick, if_neg (Nat.succ_ne_zero _), if_neg k.succ_ne_zero,
      Nat.succ_mul (k + 1)]
    omega

theorem exists_slowByteTick_iff (D n : Nat) :
    (∃ k, n = slowByteTick D k) ↔ n = 4 ∨ ∃ k ≥ 1, n = k * D + 3 := by
  constructor
  · rintro ⟨k, rfl⟩
    cases k with
    | zero => exact .inl rfl
    | succ k => exact .inr ⟨k + 1, k.succ_pos, rfl⟩
  · rintro (rfl | ⟨k, hk, rfl⟩)
    · exact ⟨0, rfl⟩
    · exact ⟨k, by rw [slowByteTick, if_neg (by omega)]⟩

/-- Settles O48: each byte fixes the tick of the next one. -/
theorem alwaysReadyByteTicks : Obligations.AlwaysReadyByteTicks := by
  intro c bits rest hc _ halways
  refine ⟨fun hD n t hrun => ?_, fun hD n t hrun => ?_, fun m n t u hlt hrunt ht hrunu hu => ?_⟩
  · rw [ofCfg_byte_ticks hc halways rfl (slowByteTick_succ hD) hrun, exists_slowByteTick_iff]
  · refine ofCfg_byte_ticks hc halways (b := fun k => k * 5 + 4) rfl (fun k => ?_) hrun
    have hmod : (k * 5 + 4) % 5 = 4 := by omega
    rw [hD, byteGap_of_mod_pos (by omega), hmod]
    omega
  · have hflow := flowing_ofCfg hc halways
    obtain rfl := hflow.inv.runTicks_eq_next hrunt
    obtain rfl := hflow.inv.runTicks_eq_next hrunu
    have hgap := five_le_byteGap c.D (0 + m)
    by_contra hsoon
    have hnext := (hflow.next_byte_iff ht hlt (by rw [ofCfg_tick, ofCfg_consts_D]; omega)).mp hu
    rw [ofCfg_tick, ofCfg_consts_D] at hnext
    omega

end Sys2Proof.Machine
end

section
/-! # The bytes of a run (41_mixer.md section 5, R167)

A running block that has emitted `k` bytes is in round `k`: every oscillator has computed the samples the
round needs, and no more than the handshake allows. Each tick keeps this, with the next round after a
tick that shows a byte. -/

namespace Sys2Proof.Machine

/-! ## The samples of a round -/

/-- The sum of every voice's sample number `k` (R126, R167). -/
def roundSum (c : Cfg) (k : Nat) : Nat := (c.voices.map fun v => v.wave c.W (k % v.period)).sum

theorem roundByte_eq (c : Cfg) (k : Nat) :
    c.roundByte k = narrow c.W c.P c.N (roundSum c k) := rfl

/-- The oscillator has computed its first `n` samples: the phase is that of sample `n`, and the sample
it holds is the one before, if there is one (R126). -/
structure Osc.HasComputed (W : Nat) (o : Osc) (n : Nat) : Prop where
  current : o.current = n % o.voice.period
  sample : ∀ m, n = m + 1 → o.sample = o.voice.wave W (m % o.voice.period)

theorem Osc.hasComputed_initial (W : Nat) (v : Voice) : (Osc.initial v).HasComputed W 0 where
  current := (Nat.zero_mod _).symm
  sample := nofun

/-- How many samples the visit to a state computes. -/
def OState.computes : OState → Nat
  | .compute => 1
  | .waiting => 0
  | .ready => 0

/-- A visit to COMPUTE computes the next sample, and no other tick computes one. -/
theorem Osc.HasComputed.blockTick {k : Consts} {o : Osc} {n : Nat} (h : o.HasComputed k.W n)
    (hp : 0 < o.voice.period) (ack : Bool) :
    (o.blockTick k ack).HasComputed k.W (n + o.ostate.computes) := by
  by_cases hst : o.ostate = .compute
  · rw [Osc.blockTick_of_compute hst, hst]
    refine ⟨?_, fun m hm => ?_⟩
    · rw [Osc.computed_current, h.current, nextCount_mod n hp]
      rfl
    · obtain rfl : n = m := Nat.succ_inj.mp hm
      rw [Osc.computed_sample, h.current, Osc.computed_voice]
  · have hnone : o.ostate.computes = 0 := by
      cases hc : o.ostate with
      | compute => exact absurd hc hst
      | waiting | ready => rfl
    rw [hnone]
    refine ⟨?_, fun m hm => ?_⟩
    · rw [Osc.blockTick_current_of_ne_compute hst, Osc.blockTick_voice, h.current, Nat.add_zero]
    · rw [Osc.blockTick_sample_of_ne_compute hst, Osc.blockTick_voice, h.sample m hm]

/-- How many samples an oscillator has computed in round `k`: until `ack` rises, sample `k` is computed on
leaving COMPUTE; while `ack` is 1, an oscillator that waits has passed READY and computed the next one. -/
def OState.samplesIn (k : Nat) : Bool → OState → Nat
  | false, .compute => k
  | false, .waiting => k + 1
  | false, .ready => k + 1
  | true, .compute => k + 1
  | true, .waiting => k + 2
  | true, .ready => k + 1

/-- While `ack` holds its value, the round goes on. -/
theorem OState.samplesIn_after (k : Nat) (ack : Bool) (st : OState) :
    (st.after ack).samplesIn k ack = st.samplesIn k ack + st.computes := by
  cases ack <;> cases st <;> rfl

/-- When `ack` falls, the next round begins. -/
theorem OState.samplesIn_succ_after (k : Nat) (st : OState) :
    (st.after true).samplesIn (k + 1) false = st.samplesIn k true + st.computes := by
  cases st <;> rfl

/-- When `ack` rises, every oscillator still holds its offer. -/
theorem OState.samplesIn_ready_after (k : Nat) :
    (OState.ready.after false).samplesIn k true = OState.ready.samplesIn k false +
      OState.ready.computes := rfl

/-! ## The invariant of a round -/

/-- The block is in round `k`: it has emitted the bytes of the rounds before. -/
structure Round (k : Nat) (s : State) : Prop where
  inv : Inv s
  samples : ∀ o ∈ s.oscs, o.HasComputed s.consts.W (o.ostate.samplesIn k s.mixer.ack)
  /-- R150. -/
  mixed : s.mixer.mstate = .sendack → s.mixer.mixed = roundSum s.cfg k
  /-- R152. -/
  byte : s.mixer.txAccept = true → s.mixer.outByte = s.cfg.roundByte k

theorem round_ofCfg {c : Cfg} (hc : c.wf = true) (bits : List Bool) (rest : Option Bool) :
    Round 0 (State.ofCfg c bits rest) where
  inv := inv_ofCfg hc
  samples := forall_ofCfg_oscs.mpr fun v _ => Osc.hasComputed_initial c.W v
  mixed := nofun
  byte := nofun

namespace Round

variable {k : Nat} {s : State} (h : Round k s)
include h

/-- The samples offered in round `k` are the voices' samples number `k`. -/
theorem sampleSum_eq (hack : s.mixer.ack = false) (hready : ∀ o ∈ s.oscs, o.ostate = .ready) :
    sampleSum s.oscs = roundSum s.cfg k := by
  rw [sampleSum, roundSum, State.cfg_voices, List.map_map]
  refine congrArg List.sum (List.map_congr_left fun o ho => ?_)
  have hcomputed := h.samples o ho
  rw [hack, hready o ho] at hcomputed
  exact hcomputed.sample k rfl

/-- The number of samples after a tick, if it is what the oscillators' states then ask for. -/
theorem samples_blockTick {k' : Nat}
    (hcount : ∀ o ∈ s.oscs, (o.ostate.after s.mixer.ack).samplesIn k' s.blockTick.mixer.ack =
      o.ostate.samplesIn k s.mixer.ack + o.ostate.computes) :
    ∀ o ∈ s.blockTick.oscs,
      o.HasComputed s.blockTick.consts.W (o.ostate.samplesIn k' s.blockTick.mixer.ack) :=
  forall_blockTick_oscs.mpr fun o ho => by
    have hp : 0 < o.voice.period := Nat.zero_lt_of_lt (h.inv.phase o ho)
    rw [Osc.blockTick_ostate, hcount o ho, State.blockTick_consts]
    exact (h.samples o ho).blockTick hp _

/-- A tick that shows a byte leads to the next round: IDLE retracts `ack`. -/
theorem blockTick_of_byte (haccept : s.mixer.txAccept = true) : Round (k + 1) s.blockTick := by
  obtain ⟨hidle, hack⟩ := h.inv.idle_of_txAccept haccept
  have hst : s.mixer.mstate ≠ .sendack := by simp [hidle]
  have hnext : s.blockTick.mixer.mstate ≠ .sendack :=
    blockTick_mstate_ne_sendack hst (by simp [hidle])
  refine ⟨h.inv.blockTick, h.samples_blockTick fun o _ => ?_, fun hsendack => absurd hsendack hnext,
    fun hagain => ?_⟩
  · rw [h.inv.blockTick_ack_of_ne_sendack hst, hack, OState.samplesIn_succ_after]
  · exact nomatch (h.inv.blockTick_txAccept_of_ne_sendack hst).symm.trans hagain

/-- `ack` is 1 only in SENDACK and in a tick that shows a byte. -/
theorem ack_eq_false (hquiet : s.mixer.txAccept = false) (hst : s.mixer.mstate ≠ .sendack) :
    s.mixer.ack = false := by
  cases hm : s.mixer.mstate with
  | compute =>
    obtain ⟨hack, -⟩ := h.inv.compute hm
    exact hack
  | sendack => exact absurd hm hst
  | idle => exact (h.inv.idle hm).trans hquiet

/-- A tick that shows no byte keeps the number of samples the round asks for. -/
theorem samplesIn_blockTick_of_quiet (hquiet : s.mixer.txAccept = false) {o : Osc} (ho : o ∈ s.oscs) :
    (o.ostate.after s.mixer.ack).samplesIn k s.blockTick.mixer.ack =
      o.ostate.samplesIn k s.mixer.ack + o.ostate.computes := by
  by_cases hst : s.mixer.mstate = .sendack
  · rw [blockTick_ack_of_sendack hst]
    cases hack : s.mixer.ack with
    | true => exact OState.samplesIn_after k true _
    | false =>
      obtain ⟨-, hready⟩ := h.inv.sendack hst
      rw [hready hack o ho]
      exact OState.samplesIn_ready_after k
  · rw [h.inv.blockTick_ack_of_ne_sendack hst, h.ack_eq_false hquiet hst]
    exact OState.samplesIn_after k false _

/-- SENDACK is entered with the round's sum latched, and holds it. -/
theorem blockTick_mixed : s.blockTick.mixer.mstate = .sendack →
    s.blockTick.mixer.mixed = roundSum s.cfg k := by
  refine mixerBlockTick_cases (P := fun m => m.mstate = .sendack → m.mixed = roundSum s.cfg k)
    ?latch ?wait ?handOver ?stall ?idle
  case latch =>
    intro hst hrdy _
    obtain ⟨hack, -⟩ := h.inv.compute hst
    exact h.sampleSum_eq hack (h.inv.ready_of_rdy hrdy)
  case wait => exact fun hst _ hnext => nomatch hst.symm.trans hnext
  case handOver => exact fun _ _ hnext => nomatch hnext
  case stall => exact fun hst _ _ => h.mixed hst
  case idle =>
    intro _ hnext
    split at hnext <;> exact nomatch hnext

/-- A tick that shows no byte keeps the round. -/
theorem blockTick_of_quiet (hquiet : s.mixer.txAccept = false) : Round k s.blockTick := by
  refine ⟨h.inv.blockTick, h.samples_blockTick fun o ho => h.samplesIn_blockTick_of_quiet hquiet ho,
    fun hsendack => ?_, fun haccept => ?_⟩
  · rw [blockTick_cfg, h.blockTick_mixed hsendack]
  · obtain ⟨hst, hready⟩ := h.inv.blockTick_txAccept_iff.mp haccept
    rw [blockTick_outByte_of_handOver hst hready, h.mixed hst, blockTick_cfg, roundByte_eq,
      State.cfg_N, State.cfg_W, State.cfg_P]

/-- From round `k` on, a run emits the bytes of the rounds `k`, `k + 1`, ... -/
theorem emitted_eq_map_range' (hwrap : s.consts.triPolicy = .wrap) (n : Nat) :
    ∃ m, (emittedIn n s).map Prod.snd = (List.range' k m).map s.cfg.roundByte := by
  induction n generalizing k s with
  | zero => exact ⟨0, rfl⟩
  | succ n ih =>
    rw [emittedIn_of_step (h.inv.step_of_wrap hwrap)]
    cases haccept : s.mixer.txAccept with
    | true =>
      have hemit : s.emission = some (s.tick, s.mixer.outByte) := if_pos haccept
      obtain ⟨m, hm⟩ := ih (h.blockTick_of_byte haccept) hwrap
      rw [blockTick_cfg] at hm
      exact ⟨m + 1, by simp [hemit, hm, h.byte haccept, List.range'_succ]⟩
    | false =>
      have hemit : s.emission = none := if_neg (by simp [haccept])
      obtain ⟨m, hm⟩ := ih (h.blockTick_of_quiet haccept) hwrap
      rw [blockTick_cfg] at hm
      exact ⟨m, by simpa [hemit] using hm⟩

end Round

/-- Settles O46: the block starts in round 0. -/
theorem emittedBytesAreRoundBytes : Obligations.EmittedBytesAreRoundBytes := by
  intro c bits rest n hc hwrap
  obtain ⟨m, hm⟩ := (round_ofCfg hc bits rest).emitted_eq_map_range' hwrap n
  have hlen : (emittedIn n (State.ofCfg c bits rest)).length = m := by
    simpa using congrArg List.length hm
  rw [hm, hlen, cfg_ofCfg, List.range_eq_range']

end Sys2Proof.Machine
end

section
/-! # Configuration errors and legal blocks (60_exceptions.md)

The checks accept exactly the legal configurations (R180 to R187), so whatever is built is a legal block;
and a legal block under the wrap policy runs for ever (R188). -/

namespace Sys2Proof

/-- A voice as the checks accept it (R182, R183, D9). -/
def RawVoice.Legal (v : RawVoice) : Prop :=
  (v.kind = .square ∨ v.kind = .triangle) ∧
    ∃ p, v.period = some p ∧ 1 ≤ p ∧ (v.kind = .triangle → 2 ≤ p)

/-- A raw configuration as the checks accept it (R181 to R183, R185, R186, D22). -/
def RawCfg.Legal (r : RawCfg) : Prop :=
  1 ≤ r.D ∧ 1 ≤ r.P ∧ r.P < r.W ∧ 1 ≤ r.voices.length ∧ ∀ v ∈ r.voices, v.Legal

end Sys2Proof

namespace Sys2Proof.Machine

/-! ## The checks of one voice -/

theorem badKind_eq_false_iff (v : RawVoice) :
    v.badKind = false ↔ v.kind = .square ∨ v.kind = .triangle := by
  unfold RawVoice.badKind
  cases v.kind <;> decide

theorem badPeriod_eq_false_iff (v : RawVoice) :
    v.badPeriod = false ↔ ∃ p, v.period = some p ∧ 1 ≤ p := by
  unfold RawVoice.badPeriod
  cases v.period with
  | none => simp
  | some p => simp [Int.lt_iff_add_one_le]

theorem badTriPeriod_eq_false_iff {v : RawVoice} {p : Int} (hp : v.period = some p) :
    v.badTriPeriod = false ↔ (v.kind = .triangle → 2 ≤ p) := by
  simp [RawVoice.badTriPeriod, hp, Int.lt_iff_add_one_le]

/-- The three checks of a voice together (R182, R183). -/
theorem rawVoice_legal_iff (v : RawVoice) :
    v.Legal ↔ v.badPeriod = false ∧ v.badTriPeriod = false ∧ v.badKind = false := by
  rw [badPeriod_eq_false_iff, badKind_eq_false_iff]
  constructor
  · rintro ⟨hkind, p, hp, hpos, htri⟩
    exact ⟨⟨p, hp, hpos⟩, (badTriPeriod_eq_false_iff hp).mpr htri, hkind⟩
  · rintro ⟨⟨p, hp, hpos⟩, htri, hkind⟩
    exact ⟨hkind, p, hp, hpos, (badTriPeriod_eq_false_iff hp).mp htri⟩

/-- An accepted voice is one of a legal configuration (R15, R54). -/
theorem toVoice_ok_of_legal {v : RawVoice} (h : v.Legal) :
    v.toVoice.kindOk = true ∧ v.toVoice.periodOk = true := by
  obtain ⟨hkind, p, hp, hpos, htri⟩ := h
  have hperiod : v.toVoice.period = p.toNat := by simp [RawVoice.toVoice, hp]
  refine ⟨(voice_kindOk_iff _).mpr hkind, (voice_periodOk_iff _).mpr ?_⟩
  rw [hperiod]
  exact ⟨by omega, fun hk => by have := htri hk; omega⟩

/-! ## The checks of the whole configuration -/

/-- No error is reported exactly when each of the checks 2 to 7 passes. -/
theorem firstError_eq_none_iff (r : RawCfg) :
    firstError r = none ↔
      (∀ v ∈ r.voices, v.badPeriod = false) ∧ 0 < r.D ∧
      (∀ v ∈ r.voices, v.badTriPeriod = false) ∧ 1 ≤ r.voices.length ∧
      (1 ≤ r.P ∧ r.P < r.W) ∧ ∀ v ∈ r.voices, v.badKind = false := by
  simp only [← firstVoice_eq_none (i := 1)]
  fun_cases firstError r with
  | case1 i hperiod => simp [hperiod]
  | case2 hperiod hD => simp [hD.not_gt]
  | case3 hperiod hD i htri => simp [htri]
  | case4 hperiod hD htri hN => simp [hN.not_ge]
  | case5 hperiod hD htri hN hwidths => simp [hwidths]
  | case6 hperiod hD htri hN hwidths i hkind => simp [hkind]
  | case7 hperiod hD htri hN hwidths hkind =>
    simp [hperiod, not_le.mp hD, htri, not_lt.mp hN, not_not.mp hwidths, hkind]

theorem firstError_eq_none_iff_legal (r : RawCfg) : firstError r = none ↔ r.Legal := by
  simp only [firstError_eq_none_iff, RawCfg.Legal, rawVoice_legal_iff, forall_and]
  constructor
  · rintro ⟨hperiod, hD, htri, hN, ⟨hP, hPW⟩, hkind⟩
    exact ⟨hD, hP, hPW, hN, hperiod, htri, hkind⟩
  · rintro ⟨hD, hP, hPW, hN, hperiod, htri, hkind⟩
    exact ⟨hperiod, hD, htri, hN, ⟨hP, hPW⟩, hkind⟩

/-- What the checks of the integers can answer (R180). -/
theorem checkParams_eq_ok {r : RawCfg} {c : Cfg} :
    checkParams r = .ok c ↔ c = r.toCfg ∧ r.Legal := by
  rw [← firstError_eq_none_iff_legal]
  cases h : firstError r <;> simp [checkParams, h, eq_comm]

theorem checkConfig_eq_ok {ps : Profiles} {name : Option String} {r : RawCfg} {c : Cfg} :
    checkConfig ps name r = .ok c ↔
      (∃ clk, checkProfile ps name = .ok clk) ∧ checkParams r = .ok c := by
  cases h : checkProfile ps name <;> simp [checkConfig, h]

/-- Settles O54: the profile check answers known profiles, the checks of the integers the legal ones. -/
theorem checkAcceptsExactlyLegal : Obligations.CheckAcceptsExactlyLegal := by
  intro ps name r c
  rw [checkConfig_eq_ok, checkParams_eq_ok, exists_comm]
  exact and_congr_left' (exists_congr fun _ => checkProfile_eq_ok)

/-! ## What is built -/

theorem toCfg_wf {r : RawCfg} (h : r.Legal) : r.toCfg.wf = true := by
  obtain ⟨hD, hP, hPW, hN, hvoices⟩ := h
  refine (cfg_wf_iff _).mpr ⟨?_, ?_, ?_, ?_, ?_⟩
  · simp only [RawCfg.toCfg]
    omega
  · simpa [RawCfg.toCfg, Cfg.N] using hN
  · simp only [RawCfg.toCfg]
    omega
  · exact List.forall_mem_map.mpr fun v hv => (toVoice_ok_of_legal (hvoices v hv)).1
  · exact List.forall_mem_map.mpr fun v hv => (toVoice_ok_of_legal (hvoices v hv)).2

theorem checkParams_wf {r : RawCfg} {c : Cfg} (h : checkParams r = .ok c) : c.wf = true := by
  obtain ⟨rfl, hlegal⟩ := checkParams_eq_ok.mp h
  exact toCfg_wf hlegal

section
variable {ps : Profiles} {mode : RoundMode} {q : Request}

theorem configure_eq_ok {c : Cfg} :
    configure ps mode q = .ok c ↔
      ∃ clk, checkProfile ps q.profile = .ok clk ∧ checkParams (deriveRaw mode clk q) = .ok c := by
  cases h : checkProfile ps q.profile <;> simp [configure, h]

theorem build_of_configure_ok {c : Cfg} (h : configure ps mode q = .ok c) (bits : List Bool)
    (rest : Option Bool) : build ps mode q bits rest = .ok (State.ofCfg c bits rest) := by
  simp [build, h]

theorem build_of_configure_error {e : ConfigError} (h : configure ps mode q = .error e)
    (bits : List Bool) (rest : Option Bool) : build ps mode q bits rest = .error e := by
  simp [build, h]

end

/-- Settles O52: a checked configuration is legal, and a legal one starts a running block. -/
theorem buildChecksEverythingFirst : Obligations.BuildChecksEverythingFirst := by
  intro ps mode q bits rest
  cases h : configure ps mode q with
  | error e => exact .inl ⟨e, rfl, build_of_configure_error h bits rest⟩
  | ok c =>
    obtain ⟨clk, -, hcheck⟩ := configure_eq_ok.mp h
    have hwf : c.wf = true := checkParams_wf hcheck
    exact .inr ⟨c, rfl, hwf, build_of_configure_ok h bits rest, inv_ofCfg hwf⟩

/-! ## A running block raises no exception (R188) -/

theorem legal_blockTick {s : State} (h : s.legal = true) : s.blockTick.legal = true := by
  rwa [State.legal, blockTick_cfg]

/-- From any registers whatever: a legal configuration alone keeps the block running. -/
theorem runTicks_of_legal {s : State} (hlegal : s.legal = true) (hwrap : s.consts.triPolicy = .wrap)
    (n : Nat) : runTicks n s = .next (State.blockTick^[n] s) := by
  induction n generalizing s with
  | zero => rfl
  | succ n ih =>
    calc runTicks (n + 1) s
      _ = runTicks n s.blockTick := runTicks_of_step (step_of_legal hlegal hwrap) n
      _ = .next (State.blockTick^[n + 1] s) := ih (legal_blockTick hlegal) hwrap

/-- Settles O30: each tick of a legal block answers and leaves it legal. -/
theorem runningBlockNeverStops : Obligations.RunningBlockNeverStops :=
  fun s hlegal hwrap n => ⟨State.blockTick^[n] s, runTicks_of_legal hlegal hwrap n⟩

end Sys2Proof.Machine
end

section
/-! # Reset and bring-up (70_reset_and_hazards.md)

Bring-up is the profile lookup, then the check of what is derived from the rates (R213, D11); so a block is
built exactly from a request whose derived integers are legal. -/

namespace Sys2Proof.Machine

/-! ## The profile -/

/-- The one error of the profile check (R184). -/
theorem checkProfile_of_unknown {ps : Profiles} {name : Option String}
    (h : ¬ ∃ n clk, name = some n ∧ List.lookup n ps = some clk) :
    checkProfile ps name = .error ⟨.unknownProfile, .profile⟩ := by
  cases name with
  | none => rfl
  | some n =>
    have hlookup : List.lookup n ps = none :=
      Option.eq_none_iff_forall_ne_some.mpr fun clk hclk => h ⟨n, clk, rfl, hclk⟩
    simp [checkProfile, hlookup]

theorem checkConfig_of_known {ps : Profiles} {name : Option String} {clk : Rate}
    (h : checkProfile ps name = .ok clk) (r : RawCfg) :
    checkConfig ps name r = checkParams r := by
  simp [checkConfig, h]

section
variable {ps : Profiles} {mode : RoundMode} {q : Request}

theorem configure_of_unknown {e : ConfigError} (h : checkProfile ps q.profile = .error e) :
    configure ps mode q = .error e := by
  simp [configure, h]

theorem configure_of_known {clk : Rate} (h : checkProfile ps q.profile = .ok clk) :
    configure ps mode q = checkParams (deriveRaw mode clk q) := by
  simp [configure, h]

/-! ## The block that is built -/

theorem build_eq_ok {bits : List Bool} {rest : Option Bool} {s : State} :
    build ps mode q bits rest = .ok s ↔
      ∃ c, configure ps mode q = .ok c ∧ s = State.ofCfg c bits rest := by
  cases h : configure ps mode q <;> simp [build, h, eq_comm]

/-- With a known profile the block is built exactly when the derived integers are legal (R180, R213). -/
theorem build_eq_ok_of_known {clk : Rate} (h : checkProfile ps q.profile = .ok clk)
    {bits : List Bool} {rest : Option Bool} {s : State} :
    build ps mode q bits rest = .ok s ↔
      (deriveRaw mode clk q).Legal ∧ s = State.ofCfg (deriveRaw mode clk q).toCfg bits rest := by
  simp only [build_eq_ok, configure_of_known h, checkParams_eq_ok]
  constructor
  · rintro ⟨c, ⟨rfl, hlegal⟩, rfl⟩
    exact ⟨hlegal, rfl⟩
  · rintro ⟨hlegal, rfl⟩
    exact ⟨_, ⟨rfl, hlegal⟩, rfl⟩

end

/-! ## What is derived (D11) -/

theorem deriveRaw_legal_iff {mode : RoundMode} {clk : Rate} {q : Request} :
    (deriveRaw mode clk q).Legal ↔
      1 ≤ deriveDivisor mode clk q.sampleRate ∧ 1 ≤ q.P ∧ q.P < q.W ∧ 1 ≤ q.voices.length ∧
        ∀ v ∈ q.voices, (v.kind = .square ∨ v.kind = .triangle) ∧
          ∃ p, derivePeriod mode q.sampleRate v.frequency = some p ∧ 1 ≤ p ∧
            (v.kind = .triangle → 2 ≤ p) := by
  simp only [RawCfg.Legal, RawVoice.Legal, deriveRaw, List.length_map, List.forall_mem_map]

theorem deriveRaw_toCfg (mode : RoundMode) (clk : Rate) (q : Request) :
    (deriveRaw mode clk q).toCfg =
      { W := q.W.toNat, P := q.P.toNat, D := (deriveDivisor mode clk q.sampleRate).toNat
        voices := q.voices.map fun v =>
          { kind := v.kind
            period := ((derivePeriod mode q.sampleRate v.frequency).getD 0).toNat }
        triPolicy := q.triPolicy } := by
  simp [deriveRaw, RawCfg.toCfg, RawVoice.toVoice, Function.comp_def]

/-- Settles O53: the profile decides whether anything is derived, the legality of what is derived
whether anything is built. -/
theorem bringUpDerivesThenChecks : Obligations.BringUpDerivesThenChecks := by
  intro ps mode q bits rest
  constructor
  · intro hunknown
    have hconfigure := configure_of_unknown (mode := mode) (checkProfile_of_unknown hunknown)
    exact ⟨_, rfl, hconfigure, build_of_configure_error hconfigure bits rest⟩
  · intro n clk hname hclk
    have hknown : checkProfile ps q.profile = .ok clk := checkProfile_eq_ok.mpr ⟨n, hname, hclk⟩
    refine ⟨(configure_of_known hknown).trans (checkConfig_of_known hknown _).symm, fun s => ?_⟩
    rw [build_eq_ok_of_known hknown, deriveRaw_legal_iff, deriveRaw_toCfg]

end Sys2Proof.Machine
end

section
/-! # Selectors (30_encoding.md)

The decoder is the search of the operation map (R98), so it answers an operation exactly on the selectors
that the operation's row matches, and rejects exactly those that no row matches (R99). -/

namespace Sys2Proof.Machine

/-! ## The operation map -/

/-- Every operation's selectors are matched by its row and by no other. -/
theorem rowMatches (i : Instr) : Laws.RowMatches.Statement i := by
  cases i with
  | oscComputeSq => exact Laws.RowMatches.oscComputeSq
  | oscComputeTri => exact Laws.RowMatches.oscComputeTri
  | oscWaiting => exact Laws.RowMatches.oscWaiting
  | oscReady => exact Laws.RowMatches.oscReady
  | mixCompute => exact Laws.RowMatches.mixCompute
  | mixSendack => exact Laws.RowMatches.mixSendack
  | mixIdle => exact Laws.RowMatches.mixIdle
  | divTick => exact Laws.RowMatches.divTick

theorem mem_selectorsOf_of_matches :
    ∀ r ∈ opRows, ∀ sel, r.matches sel = true → sel ∈ selectorsOf r.op := by decide

theorem exists_row (i : Instr) : ∃ r ∈ opRows, r.op = i := by
  cases i <;> decide

theorem encode_mem_selectorsOf (i : Instr) : encode i ∈ selectorsOf i := by
  cases i <;> simp [selectorsOf]

/-- The decoder answers an operation exactly on the operation's selectors. -/
theorem decode_eq_ok_iff_mem {sel : Selector} {i : Instr} :
    decode sel = .ok i ↔ sel ∈ selectorsOf i := by
  unfold decode
  cases hfind : opRows.find? (fun r => r.matches sel) with
  | none =>
    refine iff_of_false nofun fun hsel => ?_
    obtain ⟨r, hr, hop⟩ := exists_row i
    exact List.find?_eq_none.mp hfind r hr ((rowMatches i sel hsel r hr).mpr hop)
  | some r =>
    have hr : r ∈ opRows := List.mem_of_find?_eq_some hfind
    have hmatch : r.matches sel = true := List.find?_some (p := fun r : OpRow => r.matches sel) hfind
    constructor
    · rintro ⟨⟩
      exact mem_selectorsOf_of_matches r hr sel hmatch
    · intro hsel
      exact congrArg Except.ok ((rowMatches i sel hsel r hr).mp hmatch)

/-- The decoder answers a row's operation exactly on the selectors the row matches. -/
theorem decode_eq_ok_iff_matches {r : OpRow} (hr : r ∈ opRows) (sel : Selector) :
    decode sel = .ok r.op ↔ r.matches sel = true := by
  rw [decode_eq_ok_iff_mem]
  exact ⟨fun hsel => (rowMatches r.op sel hsel r hr).mpr rfl, mem_selectorsOf_of_matches r hr sel⟩

/-- The decoder rejects exactly the selectors that no row matches. -/
theorem exists_decode_eq_error_iff (sel : Selector) :
    (∃ e, decode sel = .error e) ↔ ∀ r ∈ opRows, ¬ r.matches sel = true := by
  rw [← List.find?_eq_none]
  unfold decode
  cases opRows.find? (fun r => r.matches sel) <;> simp

/-- Settles O1: each clause is one row of the map. -/
theorem operationMapIsMaskAndMatch : Obligations.OperationMapIsMaskAndMatch := by
  intro sel
  have hrow : ∀ r ∈ opRows, decode sel = .ok r.op ↔ sel &&& r.mask = r.pattern := fun r hr => by
    rw [decode_eq_ok_iff_matches hr, OpRow.matches, beq_iff_eq]
  simpa only [opRows, List.forall_mem_cons, List.not_mem_nil, false_imp_iff, implies_true,
    and_true] using hrow

/-- Settles O2: of the 64 selectors, those of the five bullets are the ones that no row matches. -/
theorem reservedSelectorsAreRejected : Obligations.ReservedSelectorsAreRejected := by
  intro sel
  rw [exists_decode_eq_error_iff]
  revert sel
  decide

/-- Settles O3: the encoder's selector is one of the operation's. -/
theorem decodeInvertsEncode : Obligations.DecodeInvertsEncode :=
  fun i => ⟨decode_eq_ok_iff_mem.mpr (encode_mem_selectorsOf i), fun _ => decode_eq_ok_iff_mem⟩

/-- Settles O4: thirteen closed words, decoded. -/
theorem writtenOutWordsDecode : Obligations.WrittenOutWordsDecode := by
  unfold Obligations.WrittenOutWordsDecode
  decide

/-! ## The fields of a selector (R95) -/

section
variable (unit kind state : Code)

@[simp] theorem unitField_selectorOf : (selectorOf unit kind state).unitField = unit := by
  revert unit kind state
  decide

@[simp] theorem kindField_selectorOf : (selectorOf unit kind state).kindField = kind := by
  revert unit kind state
  decide

@[simp] theorem stateField_selectorOf : (selectorOf unit kind state).stateField = state := by
  revert unit kind state
  decide

end

@[simp] theorem selectorOf_fields (sel : Selector) :
    selectorOf sel.unitField sel.kindField sel.stateField = sel := by
  revert sel
  decide

/-- Settles O5: the fields of a composed selector are the codes it is composed of. -/
theorem agentsComposeTheirSelectors : Obligations.AgentsComposeTheirSelectors := by
  refine ⟨fun o => ?_, fun m => ?_, rfl⟩
  · simp only [Osc.selector, unitField_selectorOf, kindField_selectorOf, stateField_selectorOf,
      true_and]
    exact ⟨by cases o.voice.kind <;> rfl, by cases o.ostate <;> rfl⟩
  · simp only [Mixer.selector, unitField_selectorOf, kindField_selectorOf, stateField_selectorOf,
      true_and]
    cases m.mstate <;> rfl

/-! ## Placing a selector (log 2) -/

theorem code_waveKind_ofCode (c : Code) : (WaveKind.ofCode c).code = c := by
  revert c
  decide

theorem oState_exists_ofCode {c : Code} (h : c ≠ 3) :
    ∃ st, OState.ofCode c = some st ∧ st.code = c := by
  revert c
  decide

theorem mState_exists_ofCode {c : Code} (h : c ≠ 3) :
    ∃ st, MState.ofCode c = some st ∧ st.code = c := by
  revert c
  decide

@[simp] theorem withFetchWord_toNat (s : State) (n : Nat) (sel : Selector) :
    s.withFetchWord n sel.toNat = placeSelector s sel := by
  rw [State.withFetchWord, if_pos sel.isLt, BitVec.ofNat_toNat, BitVec.setWidth_eq]

/-- A word of the oscillators' unit whose state field is a state is what oscillator 1 then selects. -/
theorem placeSelector_osc {s : State} {sel : Selector} (hN : 1 ≤ s.N) (hunit : sel.unitField = 0)
    (hstate : sel.stateField ≠ 3) :
    ∃ o, (placeSelector s sel).oscs[0]? = some o ∧ o.selector = sel := by
  obtain ⟨st, hst, hcode⟩ := oState_exists_ofCode hstate
  obtain ⟨o, os, hos⟩ := List.exists_cons_of_length_pos hN
  refine ⟨{ o with voice := { o.voice with kind := WaveKind.ofCode sel.kindField }, ostate := st },
    by simp [placeSelector, hunit, hos, hst], ?_⟩
  rw [Osc.selector, code_waveKind_ofCode, hcode, ← hunit, selectorOf_fields]

/-- A word of the mixer's unit whose state field is a state is what the mixer then selects. -/
theorem placeSelector_mixer (s : State) {sel : Selector} (hunit : sel.unitField = 1)
    (hkind : sel.kindField = 0) (hstate : sel.stateField ≠ 3) :
    (placeSelector s sel).mixer.selector = sel := by
  obtain ⟨st, hst, hcode⟩ := mState_exists_ofCode hstate
  have hplace : placeSelector s sel = s.setMixer { s.mixer with mstate := st } := by
    simp [placeSelector, hunit, hkind, hst]
  rw [hplace, State.setMixer_mixer, Mixer.selector, hcode, ← hunit, ← hkind, selectorOf_fields]

/-- A word that no register can hold is placed nowhere. -/
theorem placeSelector_nowhere (s : State) {sel : Selector} (hunit : sel.unitField ≠ 0)
    (hmix : sel.unitField = 1 → sel.kindField = 0 → sel.stateField = 3) :
    placeSelector s sel = s := by
  unfold placeSelector
  rw [if_neg hunit]
  split
  next hfields =>
    obtain ⟨hone, hkind⟩ := hfields
    rw [hmix hone hkind]
    rfl
  next => rfl

theorem oscOp_fields : ∀ i ∈ oscOps, ∀ sel ∈ selectorsOf i,
    sel.unitField = 0 ∧ sel.stateField ≠ 3 := by decide

theorem mixOp_fields : ∀ i ∈ mixOps, ∀ sel ∈ selectorsOf i,
    sel.unitField = 1 ∧ sel.kindField = 0 ∧ sel.stateField ≠ 3 := by decide

/-- Settles O6: each unit's selectors are placed where its agent composes them from; a reserved word of
the mixer's unit has a kind or the state code 0b11. -/
theorem placedSelectorIsSelected : Obligations.PlacedSelectorIsSelected := by
  constructor
  · intro s i sel hN hsel
    simp only [withFetchWord_toNat]
    obtain hosc | hmix | rfl := mem_oscOps_or_mem_mixOps_or_eq_divTick i
    · obtain ⟨hunit, hstate⟩ := oscOp_fields i hosc sel hsel
      exact .inl (placeSelector_osc hN hunit hstate)
    · obtain ⟨hunit, hkind, hstate⟩ := mixOp_fields i hmix sel hsel
      exact .inr (.inl (placeSelector_mixer s hunit hkind hstate))
    · exact .inr (.inr (List.mem_singleton.mp hsel).symm)
  · intro s sel hunit hreserved
    rw [withFetchWord_toNat]
    refine placeSelector_nowhere s hunit fun hone hkind => ?_
    have hbullets := (reservedSelectorsAreRejected sel).mp hreserved
    simpa [hone, hkind] using hbullets

end Sys2Proof.Machine
end

section
/-! # The triangle oscillator (40_oscillator.md sections 1 and 2, D8)

Where the triangle formula lands, and so what OSC.COMPUTE.TRI writes under the wrap policy and when it
stops: for a range under the fault policy (D8), or for a division by zero (log 7). -/

namespace Sys2Proof.Machine

/-! ## The triangle formula -/

theorem natCast_maxSample (W : Nat) : (maxSample W : Int) = 2 ^ W - 1 := by
  rw [maxSample, Nat.cast_sub Nat.one_le_two_pow]
  push_cast
  rfl

theorem maxSample_add_one (W : Nat) : maxSample W + 1 = 2 ^ W :=
  Nat.sub_add_cancel Nat.one_le_two_pow

theorem truncTo_eq (W : Nat) (v : Int) : truncTo W v = (v % 2 ^ W).toNat := by
  rw [truncTo, Nat.cast_pow, Nat.cast_ofNat]

/-- A value in range is its own truncation. -/
theorem truncTo_of_le {W v : Nat} (h : v ≤ maxSample W) : truncTo W v = v := by
  have hlt : v < 2 ^ W := (le_maxSample_iff W v).mp h
  rw [truncTo, ← Int.natCast_mod, Int.toNat_natCast, Nat.mod_eq_of_lt hlt]

/-- A value above the range, by less than a range, wraps once. -/
theorem truncTo_of_gt {W v : Nat} (hgt : maxSample W < v) (hle : v ≤ 2 * maxSample W) :
    truncTo W v = v - 2 ^ W := by
  have hpow := maxSample_add_one W
  rw [truncTo, ← Int.natCast_mod, Int.toNat_natCast, Nat.mod_eq_sub_mod (by omega),
    Nat.mod_eq_of_lt (by omega)]

/-- The formula of R112 over the integers. -/
theorem triangleRaw_eq (W c p : Nat) :
    triangleRaw W c p =
      if (c : Int) > (p / 2 : Nat) then (2 ^ W - 1) * (c : Int) / (p / 2 : Nat)
      else 2 ^ W - 1 - ((2 ^ W - 1) * (c : Int) / (p / 2 : Nat) - (2 ^ W - 1)) := by
  unfold triangleRaw triangleTarget
  generalize p / 2 = h
  simp [natCast_maxSample]

/-- Before and on the midpoint the formula falls from `2 * MAXS`. -/
theorem triangleRaw_of_le (W : Nat) {c p : Nat} (hc : c ≤ p / 2) :
    triangleRaw W c p = 2 * (maxSample W : Int) - (maxSample W * c / (p / 2) : Nat) := by
  rw [triangleRaw, if_neg (by omega), triangleTarget]
  ring

/-- After the midpoint it is the target. -/
theorem triangleRaw_of_gt (W : Nat) {c p : Nat} (hc : p / 2 < c) :
    triangleRaw W c p = (maxSample W * c / (p / 2) : Nat) := if_pos hc

/-- The value of the formula, where it is a natural number, truncated. -/
theorem triangleSample_of_raw {W c p v : Nat} (h : triangleRaw W c p = v) :
    triangleSample W c p = truncTo W v := congrArg (truncTo W) h

section
variable {W c p : Nat}

/-- The target is below MAXS before the midpoint, as the next lemmas say it is MAXS there, and between
MAXS and `2 * MAXS` after it. -/
theorem triangleTarget_lt (hW : 1 ≤ W) (hc : c < p / 2) :
    maxSample W * c / (p / 2) < maxSample W :=
  Nat.div_lt_of_lt_mul (by rw [Nat.mul_comm]; exact Nat.mul_lt_mul_of_pos_right hc (maxSample_pos hW))

theorem triangleTarget_midpoint (hp : 2 ≤ p) : maxSample W * (p / 2) / (p / 2) = maxSample W :=
  Nat.mul_div_cancel _ (by omega)

theorem le_triangleTarget (hp : 2 ≤ p) (hc : p / 2 ≤ c) :
    maxSample W ≤ maxSample W * c / (p / 2) :=
  (Nat.le_div_iff_mul_le (by omega)).mpr (Nat.mul_le_mul_left _ hc)

theorem triangleTarget_le (hc : c ≤ 2 * (p / 2)) :
    maxSample W * c / (p / 2) ≤ 2 * maxSample W :=
  Nat.div_le_of_le_mul (by nlinarith)

/-- Before the midpoint the formula is above the range, and wraps. -/
theorem triangle_before (hW : 1 ≤ W) (hc : c < p / 2) :
    (maxSample W : Int) < triangleRaw W c p ∧ triangleRaw W c p ≤ 2 * (maxSample W : Int) ∧
      triangleSample W c p = maxSample W - 1 - maxSample W * c / (p / 2) := by
  have htarget := triangleTarget_lt hW hc
  have hpow := maxSample_add_one W
  have hraw : triangleRaw W c p = (2 * maxSample W - maxSample W * c / (p / 2) : Nat) := by
    rw [triangleRaw_of_le W hc.le]
    omega
  generalize maxSample W * c / (p / 2) = target at htarget hraw ⊢
  rw [triangleSample_of_raw hraw, truncTo_of_gt (by omega) (by omega), hraw]
  omega

/-- At the midpoint the formula is MAXS. -/
theorem triangle_midpoint (hp : 2 ≤ p) :
    triangleRaw W (p / 2) p = maxSample W ∧ triangleSample W (p / 2) p = maxSample W := by
  have hraw : triangleRaw W (p / 2) p = maxSample W := by
    rw [triangleRaw_of_le W le_rfl, triangleTarget_midpoint hp]
    ring
  exact ⟨hraw, (triangleSample_of_raw hraw).trans (truncTo_of_le le_rfl)⟩

/-- After the midpoint the formula is the target, and wraps unless it is MAXS. -/
theorem triangle_after (hp : 2 ≤ p) (hc : p / 2 < c) (hcp : c < p) :
    (maxSample W : Int) ≤ triangleRaw W c p ∧ triangleRaw W c p ≤ 2 * (maxSample W : Int) ∧
      (triangleRaw W c p = maxSample W → triangleSample W c p = maxSample W) ∧
      (triangleRaw W c p > maxSample W →
        triangleSample W c p = maxSample W * c / (p / 2) - 2 ^ W) := by
  have hlow : maxSample W ≤ maxSample W * c / (p / 2) := le_triangleTarget hp hc.le
  have hhigh : maxSample W * c / (p / 2) ≤ 2 * maxSample W := triangleTarget_le (by omega)
  have hraw := triangleRaw_of_gt W hc
  refine ⟨by omega, by omega, fun heq => ?_, fun hgt => ?_⟩
  · rw [triangleSample_of_raw heq, truncTo_of_le le_rfl]
  · rw [triangleSample_of_raw hraw, truncTo_of_gt (by omega) hhigh]

end

/-- Settles O18: phase 0 lies before the midpoint, and phase `2 * (p // 2)`, where the target is
`2 * MAXS`, after it. -/
theorem triangleShape : Obligations.TriangleShape := by
  intro W c p hW hp hcp
  refine ⟨triangle_before hW, ?_, fun hc => triangle_after hp hc hcp, ?_, ?_⟩
  · rintro rfl
    exact triangle_midpoint hp
  · rintro rfl
    obtain ⟨-, -, hsample⟩ := triangle_before (p := p) hW (c := 0) (by omega)
    simpa using hsample
  · rintro rfl
    have htop : maxSample W * (2 * (p / 2)) / (p / 2) = 2 * maxSample W := by
      rw [← Nat.mul_assoc, Nat.mul_div_cancel _ (by omega), Nat.mul_comm]
    have hpow := maxSample_add_one W
    have hmax := maxSample_pos hW
    have hraw := triangleRaw_of_gt W (c := 2 * (p / 2)) (p := p) (by omega)
    rw [triangleSample_of_raw hraw, htop, truncTo_of_gt (by omega) le_rfl]
    omega

end Sys2Proof.Machine
end

section
/-! # Where an operation and a tick stop (60_exceptions.md sections 1 and 2)

An operation on the oscillators stops only as its rule does on an oscillator that selects it, and a tick
of a block with a voice only as one of its oscillators does. An oscillator stops for a reserved kind
(R99), or in OSC.COMPUTE.TRI: out of range under the fault policy (D8), or for period // 2 = 0 (log 7). -/

namespace Sys2Proof.Machine

/-! ## Stops -/

/-- The second computation stops for the reason the first one does. -/
inductive StopsAs {α β : Type} : Out α → Out β → Prop where
  | fault (e : Fault) : StopsAs (.fault e) (.fault e)
  | refused (e : Refusal) : StopsAs (.refused e) (.refused e)

namespace StopsAs

variable {α β γ : Type} {r : Out α} {r' : Out β}

theorem trans {r'' : Out γ} (h : StopsAs r r') (h' : StopsAs r' r'') : StopsAs r r'' := by
  cases h with
  | fault e => cases h'; exact .fault e
  | refused e => cases h'; exact .refused e

/-- A stop passes through what would have come after it. -/
theorem bindNext (h : StopsAs r r') (k : β → Out γ) : StopsAs r (bindNext r' k) := by
  cases h with
  | fault e => exact .fault e
  | refused e => exact .refused e

theorem eq_fault {e : Fault} (h : StopsAs r r') (hr : r = .fault e) : r' = .fault e := by
  cases h with
  | fault e' => simpa using hr
  | refused e' => exact nomatch hr

theorem ne_next {a : α} (h : StopsAs r r') : r ≠ .next a := by
  cases h <;> exact nofun

end StopsAs

/-- A computation answers or stops. -/
theorem next_or_stopsAs {α : Type} (r : Out α) : (∃ a, r = .next a) ∨ StopsAs r r := by
  cases r with
  | next a => exact .inl ⟨a, rfl⟩
  | fault e => exact .inr (.fault e)
  | refused e => exact .inr (.refused e)

/-! ## Operations on the oscillators -/

theorem mapOscs_cases (f : Osc → Out Osc) (os : List Osc) :
    (∃ os', mapOscs f os = .next os') ∨ ∃ o ∈ os, StopsAs (f o) (mapOscs f os) := by
  induction os with
  | nil => exact .inl ⟨[], rfl⟩
  | cons o os ih =>
    rw [mapOscs]
    obtain ⟨o', ho⟩ | hstop := next_or_stopsAs (f o)
    · rw [ho, bindNext_next]
      obtain ⟨os', h⟩ | ⟨p, hp, hstop⟩ := ih
      · exact .inl ⟨o' :: os', by rw [h, bindNext_next]⟩
      · exact .inr ⟨p, List.mem_cons_of_mem o hp, hstop.bindNext _⟩
    · exact .inr ⟨o, List.mem_cons_self, hstop.bindNext _⟩

/-- An oscillator operation answers, or stops as its rule does on an oscillator that selects it. -/
theorem performOsc_cases (sel : Osc → Bool) (f : Osc → Out Osc) (s : State) :
    (∃ t, performOsc sel f s = .next t) ∨
      ∃ o ∈ s.oscs, sel o = true ∧ StopsAs (f o) (performOsc sel f s) := by
  unfold performOsc
  obtain ⟨os, h⟩ | ⟨o, ho, hstop⟩ := mapOscs_cases (fun o => if sel o then f o else .next o) s.oscs
  · exact .inl ⟨s.setOscs os, by rw [h, bindNext_next]⟩
  · by_cases hsel : sel o = true
    · rw [if_pos hsel] at hstop
      exact .inr ⟨o, ho, hsel, hstop.bindNext _⟩
    · exact absurd (if_neg hsel) hstop.ne_next

/-- An oscillator operation that answers does its rule on every oscillator that selects it. -/
theorem rule_answers_of_performOsc {sel : Osc → Bool} {f : Osc → Out Osc} {s t : State}
    (h : performOsc sel f s = .next t) {o : Osc} (ho : o ∈ s.oscs) (hsel : sel o = true) :
    ∃ o', f o = .next o' := by
  obtain ⟨j, hj⟩ := List.mem_iff_getElem?.mp ho
  obtain ⟨o', hf, -⟩ := performOsc_getElem? h hj hsel
  exact ⟨o', hf⟩

/-! ## OSC.COMPUTE.TRI (R112, R118) -/

section
variable {k : Consts} {o : Osc}

/-- The two stops of the rule of OSC.COMPUTE.TRI. -/
theorem oscComputeTri_stops {α : Type} {r : Out α} (h : StopsAs (oscComputeTri k o) r) :
    (r = .fault .triangleOutOfRange ∧ k.triPolicy = .fault ∧
      triangleRaw k.W o.current o.voice.period > (maxSample k.W : Int)) ∨
    (r = .refused (.refusedConfiguration .triPeriod) ∧ o.voice.period < 2) := by
  unfold oscComputeTri at h
  split_ifs at h with hhalf hrange
  · cases h
    exact .inr ⟨rfl, by omega⟩
  · cases h
    exact .inl ⟨rfl, hrange⟩
  · exact absurd rfl h.ne_next

theorem oscComputeTri_of_outOfRange (hpolicy : k.triPolicy = .fault) (hp : 2 ≤ o.voice.period)
    (hraw : triangleRaw k.W o.current o.voice.period > (maxSample k.W : Int)) :
    oscComputeTri k o = .fault .triangleOutOfRange := by
  rw [oscComputeTri, if_neg (by omega), if_pos ⟨hpolicy, hraw⟩]

theorem oscComputeTri_of_inRange (hp : 2 ≤ o.voice.period)
    (hraw : triangleRaw k.W o.current o.voice.period ≤ (maxSample k.W : Int)) :
    oscComputeTri k o = .next (o.computed (triangleSample k.W o.current o.voice.period)) := by
  rw [oscComputeTri, if_neg (by omega), if_neg (not_and_of_not_right _ hraw.not_gt)]

theorem oscComputeTri_of_period_lt (hp : o.voice.period < 2) :
    oscComputeTri k o = .refused (.refusedConfiguration .triPeriod) := by
  rw [oscComputeTri, if_pos (by omega)]

end

section
variable {s : State}

theorem exec_oscComputeTri_of_computed
    (h : ∀ o ∈ s.oscs, o.voice.kind = .triangle → o.ostate = .compute →
      oscComputeTri s.consts o =
        .next (o.computed (triangleSample s.consts.W o.current o.voice.period))) :
    exec .oscComputeTri s = .next { s with
      oscs := s.oscs.map fun o =>
        if o.voice.kind = .triangle ∧ o.ostate = .compute then
          o.computed (triangleSample s.consts.W o.current o.voice.period)
        else o } := by
  refine performOsc_eq_map (fun o ho hsel => ?_) (fun o _ hnot => ?_)
  · obtain ⟨hkind, hst⟩ := (Osc.selects_oscComputeTri o).mp hsel
    rw [if_pos ⟨hkind, hst⟩, h o ho hkind hst]
  · rw [if_neg (mt (Osc.selects_oscComputeTri o).mpr hnot)]

/-- OSC.COMPUTE.TRI stops if the rule does on some triangle in COMPUTE, and then as it does on one. -/
theorem exec_oscComputeTri_stops
    (h : ∃ o ∈ s.oscs, (o.voice.kind = .triangle ∧ o.ostate = .compute) ∧
      ∀ o', oscComputeTri s.consts o ≠ .next o') :
    ∃ o ∈ s.oscs, (o.voice.kind = .triangle ∧ o.ostate = .compute) ∧
      StopsAs (oscComputeTri s.consts o) (exec .oscComputeTri s) := by
  obtain ⟨o, ho, htri, hnot⟩ := h
  obtain ⟨t, ht⟩ | ⟨p, hp, hsel, hstop⟩ :=
    performOsc_cases (Osc.selects .oscComputeTri) (oscComputeTri s.consts) s
  · obtain ⟨o', ho'⟩ := rule_answers_of_performOsc ht ho ((Osc.selects_oscComputeTri o).mpr htri)
    exact absurd ho' (hnot o')
  · exact ⟨p, hp, (Osc.selects_oscComputeTri p).mp hsel, hstop⟩

end

/-- Settles O8: under the wrap policy a triangle of period at least 2 computes, and the formula of R112
over the naturals is that over the integers. -/
theorem computeTriangleWrapResult : Obligations.ComputeTriangleWrapResult := by
  intro s hwrap hperiod
  rw [exec_oscComputeTri_of_computed fun o ho hkind hst =>
    oscComputeTri_wrap hwrap (hperiod o ho hkind hst)]
  simp only [triangleSample, truncTo_eq, triangleRaw_eq]
  rfl

/-- Settles O9: a triangle of period at least 2 stops exactly out of range, so the operation stops
exactly if one that selects it does. -/
theorem computeTriangleFaultPolicy : Obligations.ComputeTriangleFaultPolicy := by
  intro s hpolicy hperiod
  simp only [← natCast_maxSample]
  constructor
  · rintro ⟨o, ho, hkind, hst, hraw⟩
    have hfault := oscComputeTri_of_outOfRange hpolicy (hperiod o ho hkind hst) hraw
    obtain ⟨p, hp, ⟨hkindp, hstp⟩, hstop⟩ :=
      exec_oscComputeTri_stops ⟨o, ho, ⟨hkind, hst⟩, fun o' => by simp [hfault]⟩
    obtain ⟨h, -⟩ | ⟨-, hshort⟩ := oscComputeTri_stops hstop
    · exact h
    · exact absurd (hperiod p hp hkindp hstp) hshort.not_ge
  · intro hraw
    refine ⟨_, exec_oscComputeTri_of_computed fun o ho hkind hst =>
      oscComputeTri_of_inRange (hperiod o ho hkind hst) (hraw o ho hkind hst), ?_⟩
    simp only [triangleSample, truncTo_eq]
    rfl

/-- Settles O17: under the wrap policy the rule of OSC.COMPUTE.TRI stops for its division alone, and that
of MIX.SENDACK only for N = 0. -/
theorem divisionsByZeroAreRefused : Obligations.DivisionsByZeroAreRefused := by
  refine ⟨fun s hwrap hzero => ?_, fun s hN hst => ?_, fun s _ hst => ?_⟩
  · obtain ⟨o, ho, hkind, hst, hp⟩ := hzero
    have hrefused := oscComputeTri_of_period_lt (k := s.consts) hp
    obtain ⟨p, -, -, hstop⟩ :=
      exec_oscComputeTri_stops ⟨o, ho, ⟨hkind, hst⟩, fun o' => by simp [hrefused]⟩
    obtain ⟨-, hpolicy, -⟩ | ⟨h, -⟩ := oscComputeTri_stops hstop
    · exact nomatch hwrap.symm.trans hpolicy
    · exact h
  · have hrule : mixSendack s.consts s.N s.txReadyIn s.mixer =
        .refused (.refusedConfiguration .badCount) := if_pos hN
    have hexec : exec .mixSendack s = bindNext _ _ := if_pos ((Mixer.selects_mixSendack _).mpr hst)
    rw [hexec, hrule, bindNext_refused]
  · exact performMix_of_not_selects (mt (Mixer.selects_mixSendack _).mp hst) _

/-! ## One oscillator's tick -/

theorem kindOk_or_reserved (v : Voice) :
    v.kindOk = true ∨ v.kind = .sine ∨ v.kind = .reserved := by
  unfold Voice.kindOk
  cases v.kind <;> decide

theorem two_le_period {v : Voice} (h : v.periodOk = true) (htri : v.kind = .triangle) :
    2 ≤ v.period :=
  ((voice_periodOk_iff v).mp h).2 htri

section
variable {k : Consts} {ack : Bool} {o : Osc}

theorem oscNext_of_triangle (htri : o.voice.kind = .triangle ∧ o.ostate = .compute) :
    oscNext k ack o = oscComputeTri k o := by
  rw [oscNext, (Osc.selects_iff _ o).mp ((Osc.selects_oscComputeTri o).mpr htri)]

theorem oscNext_of_square (hsq : o.voice.kind = .square ∧ o.ostate = .compute) :
    oscNext k ack o = oscComputeSq k o := by
  rw [oscNext, (Osc.selects_iff _ o).mp ((Osc.selects_oscComputeSq o).mpr hsq)]

theorem oscNext_of_reserved (h : o.voice.kind = .sine ∨ o.voice.kind = .reserved) :
    oscNext k ack o = .fault (.reservedSelector o.selector) := by
  rw [oscNext, decode_osc_reserved o h]

/-- The stops of one oscillator's tick. -/
theorem oscNext_stops {α : Type} {r : Out α} (h : StopsAs (oscNext k ack o) r) :
    ((o.voice.kind = .sine ∨ o.voice.kind = .reserved) ∧
      r = .fault (.reservedSelector o.selector)) ∨
    ((o.voice.kind = .triangle ∧ o.ostate = .compute) ∧ StopsAs (oscComputeTri k o) r) := by
  obtain hkind | hreserved := kindOk_or_reserved o.voice
  · cases hst : o.ostate with
    | waiting => exact absurd (oscNext_of_waiting hkind hst) h.ne_next
    | ready => exact absurd (oscNext_of_ready hkind hst) h.ne_next
    | compute =>
      obtain hsq | htri := (voice_kindOk_iff _).mp hkind
      · exact absurd (oscNext_of_square ⟨hsq, hst⟩) h.ne_next
      · rw [oscNext_of_triangle ⟨htri, hst⟩] at h
        exact .inr ⟨⟨htri, rfl⟩, h⟩
  · exact .inl ⟨hreserved, h.eq_fault (oscNext_of_reserved hreserved)⟩

end

/-! ## The tick of the block -/

section
variable {s : State}

/-- What an oscillator's selector runs answers, or stops as some oscillator's tick does. -/
theorem runSelector_osc_cases {o : Osc} (ho : o ∈ s.oscs) :
    (∃ u, runSelector o.selector s = .next u) ∨
      ∃ p ∈ s.oscs, StopsAs (oscNext s.consts s.mixer.ack p) (runSelector o.selector s) := by
  obtain hkind | hreserved := kindOk_or_reserved o.voice
  · obtain ⟨i, hi, hdec⟩ := decode_osc_of_kindOk hkind
    rw [runSelector_ok hdec, exec_oscOp_eq_oscNext hi]
    obtain h | ⟨p, hp, -, hstop⟩ :=
      performOsc_cases (Osc.selects i) (oscNext s.consts s.mixer.ack) s
    · exact .inl h
    · exact .inr ⟨p, hp, hstop⟩
  · refine .inr ⟨o, ho, ?_⟩
    rw [runSelector_error (decode_osc_reserved o hreserved), oscNext_of_reserved hreserved]
    exact .fault _

theorem gatherOscs_cases (j : Nat) (os : List Osc) :
    (∃ os', gatherOscs s j os = .next os') ∨
      ∃ o ∈ os, StopsAs (runSelector o.selector s) (gatherOscs s j os) := by
  induction os generalizing j with
  | nil => exact .inl ⟨[], rfl⟩
  | cons o os ih =>
    rw [gatherOscs]
    obtain ⟨u, hu⟩ | hstop := next_or_stopsAs (runSelector o.selector s)
    · rw [hu, bindNext_next]
      obtain ⟨os', h⟩ | ⟨p, hp, hstop⟩ := ih (j + 1)
      · exact .inl ⟨_, by rw [h, bindNext_next]⟩
      · exact .inr ⟨p, List.mem_cons_of_mem o hp, hstop.bindNext _⟩
    · exact .inr ⟨o, List.mem_cons_self, hstop.bindNext _⟩

/-- A tick of a block with a voice answers, or stops as one of its oscillators does: the mixer and the
divider always answer. -/
theorem step_cases (hN : 0 < s.N) :
    (∃ t, step s = .next t) ∨
      ∃ o ∈ s.oscs, StopsAs (oscNext s.consts s.mixer.ack o) (step s) := by
  rw [step, tick]
  obtain ⟨os, h⟩ | ⟨o, ho, hstop⟩ := gatherOscs_cases (s := s) 0 s.oscs
  · obtain ⟨i, m, hdec, hexec, -⟩ := exec_mixer_of_N_pos hN
    have hmix : runSelector s.mixer.selector s = .next m := (runSelector_ok hdec s).trans hexec
    rw [h, bindNext_next, hmix, bindNext_next]
    exact .inl ⟨_, rfl⟩
  · obtain ⟨u, hu⟩ | ⟨p, hp, hnext⟩ := runSelector_osc_cases ho
    · exact absurd hu hstop.ne_next
    · exact .inr ⟨p, hp, (hnext.trans hstop).bindNext _⟩

/-- In a step that answers every oscillator's tick does. -/
theorem oscNext_answers_of_step {t : State} (h : step s = .next t) {o : Osc} (ho : o ∈ s.oscs) :
    ∃ o', oscNext s.consts s.mixer.ack o = .next o' := by
  obtain ⟨j, hj⟩ := List.mem_iff_getElem?.mp ho
  obtain ⟨o', ho', -⟩ := step_oscNext h hj
  exact ⟨o', ho'⟩

/-- A legal block stops only on a triangle out of range: no kind is reserved, and no triangle's period
is below 2. -/
theorem step_cases_of_legal (hlegal : s.legal = true) :
    (∃ t, step s = .next t) ∨
      (step s = .fault .triangleOutOfRange ∧ s.consts.triPolicy = .fault ∧
        ∃ o ∈ s.oscs, o.voice.kind = .triangle ∧ o.ostate = .compute ∧
          triangleRaw s.consts.W o.current o.voice.period > (maxSample s.consts.W : Int)) := by
  refine (step_cases (legal_N_pos hlegal)).imp_right fun ⟨o, ho, hstop⟩ => ?_
  obtain ⟨hkind, hperiod⟩ := legal_voice hlegal ho
  obtain ⟨hreserved, -⟩ | ⟨⟨htri, hst⟩, hrule⟩ := oscNext_stops hstop
  · rw [voice_kindOk_iff] at hkind
    rcases hreserved with h | h <;> simp [h] at hkind
  · obtain ⟨hfault, hpolicy, hraw⟩ | ⟨-, hshort⟩ := oscComputeTri_stops hrule
    · exact ⟨hfault, hpolicy, o, ho, htri, hst, hraw⟩
    · exact absurd (two_le_period hperiod htri) hshort.not_ge

end

/-- Settles O31: conversely a triangle out of range does not answer, so the tick does not. -/
theorem legalStepStopsOnlyOnTriangleRange : Obligations.LegalStepStopsOnlyOnTriangleRange := by
  intro s hlegal
  have hcases := step_cases_of_legal hlegal
  refine ⟨hcases.imp_right And.left, fun hfault => ?_, ?_⟩
  · obtain ⟨t, ht⟩ | ⟨-, hcause⟩ := hcases
    · exact nomatch ht.symm.trans hfault
    · exact hcause
  · rintro ⟨hpolicy, o, ho, htri, hst, hraw⟩
    obtain ⟨t, ht⟩ | ⟨hfault, -⟩ := hcases
    · obtain ⟨-, hperiod⟩ := legal_voice hlegal ho
      obtain ⟨o', ho'⟩ := oscNext_answers_of_step ht ho
      rw [oscNext_of_triangle ⟨htri, hst⟩,
        oscComputeTri_of_outOfRange hpolicy (two_le_period hperiod htri) hraw] at ho'
      exact nomatch ho'
    · exact hfault

/-- Settles O32: an oscillator of a reserved kind does not answer, so the tick does not; with the other
stops excluded it stops as such an oscillator does. -/
theorem reservedKindFaults : Obligations.ReservedKindFaults := by
  rintro s ⟨o, ho, hkind⟩
  have hstuck : ∀ t, step s ≠ .next t := fun t ht => by
    obtain ⟨o', ho'⟩ := oscNext_answers_of_step ht ho
    exact nomatch (oscNext_of_reserved hkind).symm.trans ho'
  refine ⟨hstuck, fun hwrap hperiod => ?_⟩
  obtain ⟨t, ht⟩ | ⟨p, hp, hstop⟩ := step_cases (List.length_pos_of_mem ho)
  · exact absurd ht (hstuck t)
  · obtain ⟨hreserved, hfault⟩ | ⟨⟨htri, -⟩, hrule⟩ := oscNext_stops hstop
    · exact ⟨p, hp, hreserved, hfault⟩
    · obtain ⟨-, hpolicy, -⟩ | ⟨-, hshort⟩ := oscComputeTri_stops hrule
      · exact nomatch hwrap.symm.trans hpolicy
      · exact absurd (hperiod p hp htri) hshort.not_ge

end Sys2Proof.Machine
end

section
/-! # The first tick and the first byte (10_state.md section 7, 41_mixer.md)

The registers at tick 0 (D3), and the first round of a block: the ticks before the first byte show none,
and so stay in round 0. MIX.IDLE, which ends a round, leaves on the snapshot's `div` (D6). -/

namespace Sys2Proof.Machine

/-! ## Tick 0 (D3) -/

/-- Settles O28: each field of `Inv` at the values of tick 0. -/
theorem invariantAtConstruction : Obligations.InvariantAtConstruction := fun _ _ _ => inv_ofCfg

/-- Settles O27: the reset state is tick 0 of a legal configuration. -/
theorem invariantAtReset : Obligations.InvariantAtReset :=
  invariantAtConstruction resetCfg [] none (by decide)

/-- Settles O29: every oscillator is an initial one, and so is the mixer. -/
theorem constructionState : Obligations.ConstructionState :=
  fun c bits rest => ⟨cfg_ofCfg c bits rest,
    forall_ofCfg_oscs.mpr fun _ _ => ⟨rfl, rfl, rfl, rfl⟩, rfl, rfl⟩

/-! ## MIX.IDLE (R155, D6) -/

/-- Settles O14: the mixer selects MIX.IDLE exactly in IDLE. -/
theorem mixIdleResult : Obligations.MixIdleResult := by
  refine fun s => performMix_eq_update (fun hsel => ?_) (fun hnot => if_neg ?_)
  · have hst := (Mixer.selects_mixIdle _).mp hsel
    rw [if_pos hst, mixIdle, hst]
    rfl
  · exact mt (Mixer.selects_mixIdle _).mpr hnot

/-! ## The first byte -/

theorem emission_of_quiet {s : State} (hquiet : s.mixer.txAccept = false) : s.emission = none :=
  if_neg (by rw [hquiet]; decide)

theorem emission_of_txAccept {s : State} (haccept : s.mixer.txAccept = true) :
    s.emission = some (s.tick, s.mixer.outByte) := if_pos haccept

/-- Ticks that show no byte emit none, and keep the round. -/
theorem Round.emittedIn_of_quiet {k : Nat} {s : State} (h : Round k s)
    (hwrap : s.consts.triPolicy = .wrap) {n : Nat}
    (hquiet : ∀ j < n, (State.blockTick^[j] s).mixer.txAccept = false) :
    Round k (State.blockTick^[n] s) ∧
      emittedIn (n + 1) s = (State.blockTick^[n] s).emission.toList := by
  induction n generalizing s with
  | zero => exact ⟨h, by rw [emittedIn_of_step (h.inv.step_of_wrap hwrap)]; simp⟩
  | succ n ih =>
    have hnow : s.mixer.txAccept = false := hquiet 0 n.succ_pos
    obtain ⟨hround, hemitted⟩ := ih (h.blockTick_of_quiet hnow) hwrap fun j hj =>
      hquiet (j + 1) (Nat.succ_lt_succ hj)
    refine ⟨hround, ?_⟩
    rw [emittedIn_of_step (h.inv.step_of_wrap hwrap), emission_of_quiet hnow, hemitted]
    rfl

/-- The oscillators are READY two ticks after construction, so the first SENDACK tick is tick 3, and the
first byte is shown in tick 4 if the transport is ready in it. -/
theorem ofCfg_txAccept_iff {c : Cfg} {bits : List Bool} {rest : Option Bool} (hc : c.wf = true)
    (hready : (State.ofCfg c bits rest).txReadyAfter 3 = true) {n : Nat} (hn : n ≤ 4) :
    (State.blockTick^[n] (State.ofCfg c bits rest)).mixer.txAccept = true ↔ n = 4 := by
  have hinv := inv_ofCfg (bits := bits) (rest := rest) hc
  cases n with
  | zero => exact ⟨nofun, nofun⟩
  | succ n =>
    have hsendack : (State.ofCfg c bits rest).SendackIn 3 := forall_ofCfg_oscs.mpr fun _ _ => rfl
    have hthree : (State.blockTick^[3] (State.ofCfg c bits rest)).txReadyIn = true := by
      rw [← txReadyAfter_zero, iterate_blockTick_txReadyAfter]
      exact hready
    rw [Function.iterate_succ_apply', (hinv.iterate_blockTick n).blockTick_txAccept_iff,
      hinv.iterate_sendack_iff hsendack (by omega), Nat.succ_inj]
    refine and_iff_left_of_imp ?_
    rintro rfl
    exact hthree

/-- Settles O42: ticks 0 to 3 show no byte, so tick 4 is still in round 0. -/
theorem firstByteAtTickFour : Obligations.FirstByteAtTickFour := by
  intro c bits rest hc hwrap hready
  have hquiet : ∀ j < 4,
      (State.blockTick^[j] (State.ofCfg c bits rest)).mixer.txAccept = false := fun j hj => by
    rw [← Bool.not_eq_true, ofCfg_txAccept_iff hc hready hj.le]
    exact hj.ne
  have haccept := (ofCfg_txAccept_iff hc hready le_rfl).mpr rfl
  obtain ⟨hround, hemitted⟩ := (round_ofCfg hc bits rest).emittedIn_of_quiet hwrap hquiet
  have hcfg : (State.blockTick^[4] (State.ofCfg c bits rest)).cfg = c := by
    simp [Function.iterate_succ_apply']
  rw [hemitted, emission_of_txAccept haccept, hround.byte haccept, hcfg, iterate_blockTick_tick,
    ofCfg_tick]
  rfl

end Sys2Proof.Machine
end

section
/-! # The first failing check (60_exceptions.md section 1, D12)

The checks run in the order of the error table, so the reported error says which check failed, and that
each one before it passed; a check of the voices reports the lowest voice that fails it. -/

namespace Sys2Proof.Machine

/-- A reported voice, counted from 1, is the lowest one with the property. -/
theorem firstVoice_lowest {bad : RawVoice → Bool} {vs : List RawVoice} {i : Nat}
    (h : firstVoice bad 1 vs = some i) :
    1 ≤ i ∧ (∃ v, vs[i - 1]? = some v ∧ bad v = true) ∧
      ∀ j v, j < i - 1 → vs[j]? = some v → bad v = false := by
  obtain ⟨j, v, rfl, hv, hbad, hlow⟩ := firstVoice_eq_some h
  rw [Nat.add_sub_cancel_left]
  exact ⟨Nat.le_add_right 1 j, ⟨v, hv, hbad⟩, hlow⟩

/-- The checks answer an error for an unknown profile, or else the first error of the integers. -/
theorem checkConfig_eq_error {ps : Profiles} {name : Option String} {r : RawCfg} {e : ConfigError}
    (h : checkConfig ps name r = .error e) :
    (¬ (∃ n clk, name = some n ∧ List.lookup n ps = some clk) ∧ e = ⟨.unknownProfile, .profile⟩) ∨
      ((∃ n clk, name = some n ∧ List.lookup n ps = some clk) ∧ firstError r = some e) := by
  by_cases hknown : ∃ n clk, name = some n ∧ List.lookup n ps = some clk
  · obtain ⟨n, clk, hn⟩ := hknown
    rw [checkConfig_of_known (checkProfile_eq_ok.mpr ⟨n, hn⟩), checkParams] at h
    split at h
    next e' he => cases h; exact .inr ⟨⟨n, clk, hn⟩, he⟩
    next => exact nomatch h
  · rw [checkConfig, checkProfile_of_unknown hknown] at h
    cases h
    exact .inl ⟨hknown, rfl⟩

/-- Settles O55: one case for each row of the error table. -/
theorem firstFailingCheckIsReported : Obligations.FirstFailingCheckIsReported := by
  intro ps name r e h known noBadPeriod noBadTri widths
  have hperiods : noBadPeriod ↔ firstVoice RawVoice.badPeriod 1 r.voices = none :=
    firstVoice_eq_none.symm
  have htris : noBadTri ↔ firstVoice RawVoice.badTriPeriod 1 r.voices = none :=
    firstVoice_eq_none.symm
  have hbounds : widths ↔ 1 ≤ r.P ∧ r.P < r.W := Iff.rfl
  have herror : (¬ known ∧ e = ⟨.unknownProfile, .profile⟩) ∨ (known ∧ firstError r = some e) :=
    checkConfig_eq_error h
  clear_value known noBadPeriod noBadTri widths
  clear h
  rw [hperiods, htris, hbounds]
  obtain ⟨hunknown, rfl⟩ | ⟨hknown, herror⟩ := herror
  · simp [hunknown]
  · revert herror
    fun_cases firstError r with
    | case1 i hperiod =>
      rintro ⟨⟩
      simpa [hknown, hperiod] using firstVoice_lowest hperiod
    | case2 hperiod hD =>
      rintro ⟨⟩
      simp [hknown, hperiod, hD]
    | case3 hperiod hD i htri =>
      rintro ⟨⟩
      simpa [hknown, hperiod, not_le.mp hD, htri] using firstVoice_lowest htri
    | case4 hperiod hD htri hN =>
      rintro ⟨⟩
      simp [hknown, hperiod, not_le.mp hD, htri, hN, hN.not_ge]
    | case5 hperiod hD htri hN hwidths =>
      rintro ⟨⟩
      simp [hknown, hperiod, not_le.mp hD, htri, hN, not_lt.mp hN, hwidths]
    | case6 hperiod hD htri hN hwidths i hkind =>
      rintro ⟨⟩
      simpa [hknown, hperiod, not_le.mp hD, htri, hN, not_lt.mp hN, not_not.mp hwidths] using
        firstVoice_lowest hkind
    | case7 => exact nofun

end Sys2Proof.Machine
end

section
/-! # Program texts (30_encoding.md section 3, D18)

A text that is accepted is one `cfg` line and lines that each add to the draft it opens (`Draft.Reads`),
and the draft is then checked like any other configuration. Conversely the lines that write out a legal
configuration are read back. -/

namespace Sys2Proof

/-- A checked voice, with its period as the integer that was checked. -/
def Voice.toRaw (v : Voice) : RawVoice := ⟨v.kind, some v.period⟩

/-- A checked configuration as the integers it was checked as. -/
def Cfg.toRaw (c : Cfg) : RawCfg :=
  { W := c.W, P := c.P, D := c.D, voices := c.voices.map Voice.toRaw, triPolicy := c.triPolicy }

/-- More voices, after those there are. -/
def RawCfg.addVoices (r : RawCfg) (vs : List RawVoice) : RawCfg :=
  { r with voices := r.voices ++ vs }

end Sys2Proof

namespace Sys2Proof.Machine

/-! ## Configurations as integers -/

@[simp] theorem addVoices_nil (r : RawCfg) : r.addVoices [] = r := by
  rw [RawCfg.addVoices, List.append_nil]

@[simp] theorem addVoices_addVoices (r : RawCfg) (vs ws : List RawVoice) :
    (r.addVoices vs).addVoices ws = r.addVoices (vs ++ ws) := by
  simp only [RawCfg.addVoices, List.append_assoc]

theorem toRaw_toVoice (v : Voice) : v.toRaw.toVoice = v := rfl

theorem toRaw_toCfg (c : Cfg) : c.toRaw.toCfg = c := by
  have hvoices : RawVoice.toVoice ∘ Voice.toRaw = id := funext toRaw_toVoice
  simp [Cfg.toRaw, RawCfg.toCfg, hvoices]

theorem toRaw_legal {c : Cfg} (hc : c.wf = true) : c.toRaw.Legal := by
  obtain ⟨⟨hP, hPW⟩, hN, hD, hkind, hperiod⟩ := (cfg_wf_iff c).mp hc
  refine ⟨Int.ofNat_le.mpr hD, Int.ofNat_le.mpr hP, Int.ofNat_lt.mpr hPW,
    by simpa [Cfg.toRaw, Cfg.N] using hN, List.forall_mem_map.mpr fun v hv => ?_⟩
  obtain ⟨hpos, htri⟩ := (voice_periodOk_iff v).mp (hperiod v hv)
  exact ⟨(voice_kindOk_iff v).mp (hkind v hv), v.period, rfl, Int.ofNat_le.mpr hpos,
    fun hk => Int.ofNat_le.mpr (htri hk)⟩

/-- What the check keeps of a legal configuration: every integer. -/
theorem toCfg_of_legal {r : RawCfg} (h : r.Legal) :
    (r.toCfg.W : Int) = r.W ∧ (r.toCfg.P : Int) = r.P ∧ (r.toCfg.D : Int) = r.D ∧
      (r.toCfg.voices.map fun v => (v.kind, some (v.period : Int))) =
        r.voices.map fun v => (v.kind, v.period) := by
  obtain ⟨hD, hP, hPW, -, hvoices⟩ := h
  refine ⟨Int.toNat_of_nonneg (by omega), Int.toNat_of_nonneg (by omega),
    Int.toNat_of_nonneg (by omega), ?_⟩
  rw [RawCfg.toCfg, List.map_map]
  refine List.map_congr_left fun v hv => ?_
  obtain ⟨-, p, hp, hpos, -⟩ := hvoices v hv
  simp [RawVoice.toVoice, hp, Int.toNat_of_nonneg (by omega : 0 ≤ p)]

/-! ## Reading lines -/

/-- The line is a `cfg` line. -/
def Directive.isCfg : Directive → Bool
  | .cfg _ _ _ | .cfgRates _ _ _ _ => true
  | .osc _ _ | .oscRate _ _ _ | .txReady _ | .run _ => false

/-- The voice an `osc` line asks for (R101, R102). -/
def Directive.voice? (mode : RoundMode) : Directive → Option RawVoice
  | .osc kind period => some ⟨kind, some period⟩
  | .oscRate kind f R => some ⟨kind, derivePeriod mode R f⟩
  | .cfg _ _ _ | .cfgRates _ _ _ _ | .txReady _ | .run _ => none

theorem voice?_of_isCfg (mode : RoundMode) {l : Directive} (h : l.isCfg = true) :
    l.voice? mode = none := by
  cases l with
  | cfg | cfgRates => rfl
  | osc | oscRate | txReady | run => exact nomatch h

/-- `d'` is what the lines `ls`, none of them a `cfg` line, make of the draft `d`. -/
structure Draft.Reads (mode : RoundMode) (d : Draft) (ls : List Directive) (d' : Draft) : Prop where
  noCfg : ∀ l ∈ ls, l.isCfg = false
  raw : d'.raw = d.raw.addVoices (ls.filterMap (Directive.voice? mode))
  tx : ∀ pat, d.tx = some pat ∨ .txReady pat ∈ ls → d'.tx = some pat
  run : ∀ T, d.run = some T ∨ .run T ∈ ls → d'.run = some T

section
variable {mode : RoundMode} {d d' d'' : Draft} {l : Directive} {ls : List Directive}

theorem Draft.Reads.nil (mode : RoundMode) (d : Draft) : d.Reads mode [] d where
  noCfg := nofun
  raw := by simp
  tx := by simp
  run := by simp

/-- Reading on from what one line made of the draft. -/
theorem Draft.Reads.cons (h : d.Reads mode [l] d') (h' : d'.Reads mode ls d'') :
    d.Reads mode (l :: ls) d'' where
  noCfg := List.forall_mem_cons.mpr ⟨h.noCfg l List.mem_cons_self, h'.noCfg⟩
  raw := by
    rw [h'.raw, h.raw, addVoices_addVoices, ← List.filterMap_append, List.singleton_append]
  tx pat hpat := by
    refine h'.tx pat ?_
    rw [List.mem_cons, ← or_assoc] at hpat
    exact hpat.imp_left fun hl => h.tx pat (by simpa using hl)
  run T hT := by
    refine h'.run T ?_
    rw [List.mem_cons, ← or_assoc] at hT
    exact hT.imp_left fun hl => h.run T (by simpa using hl)

/-- What an accepted line makes of the draft; a second `tx_ready` or `run` line is refused (log 16). -/
theorem Draft.line_reads (h : d.line mode l = .ok d') : d.Reads mode [l] d' := by
  cases l with
  | cfg | cfgRates => exact nomatch h
  | osc | oscRate =>
    cases h
    constructor <;> simp [Directive.isCfg, Directive.voice?, RawCfg.addVoices]
  | txReady p =>
    rw [Draft.line] at h
    split_ifs at h with htx hempty
    cases h
    have hfirst : d.tx = none := by simpa using htx
    constructor <;> simp [hfirst, Directive.isCfg, Directive.voice?, List.filterMap_cons]
  | run T =>
    rw [Draft.line] at h
    split_ifs at h with hrun
    cases h
    have hfirst : d.run = none := by simpa using hrun
    constructor <;> simp [hfirst, Directive.isCfg, Directive.voice?, List.filterMap_cons]

theorem Draft.lines_reads (h : Draft.lines mode d ls = .ok d') : d.Reads mode ls d' := by
  induction ls generalizing d with
  | nil =>
    cases h
    exact .nil mode _
  | cons l ls ih =>
    rw [Draft.lines] at h
    split at h
    next => exact nomatch h
    next d₁ hline => exact (Draft.line_reads hline).cons (ih h)

end

/-! ## Accepted texts -/

section
variable {mode : RoundMode}

/-- The first line begins a draft without voices (R101, R102). -/
theorem openDraft_eq_ok {l : Directive} {d : Draft} (h : openDraft mode l = .ok d) :
    ∃ W P D, d = { raw := { W := W, P := P, D := D, voices := [] } } ∧
      (l = .cfg W P D ∨
        ∃ clk R, l = .cfgRates W P clk R ∧ D = deriveDivisor mode clk R) := by
  cases l with
  | cfg W P D => cases h; exact ⟨W, P, D, rfl, .inl rfl⟩
  | cfgRates W P clk R => cases h; exact ⟨W, P, _, rfl, .inr ⟨clk, R, rfl, rfl⟩⟩
  | osc | oscRate | txReady | run => exact nomatch h

/-- A draft is closed to a program exactly if its integers are legal. -/
theorem Draft.close_eq_ok {d : Draft} {p : BlockProgram} :
    d.close = .ok p ↔ d.raw.Legal ∧
      p = ⟨d.raw.toCfg, (d.tx.map TxPattern.expand).getD [], d.tx.bind TxPattern.rest,
        d.run.getD 0⟩ := by
  unfold Draft.close
  cases h : checkParams d.raw with
  | error e =>
    refine iff_of_false nofun fun ⟨hlegal, _⟩ => ?_
    exact nomatch h.symm.trans (checkParams_eq_ok.mpr ⟨rfl, hlegal⟩)
  | ok c =>
    obtain ⟨rfl, hlegal⟩ := checkParams_eq_ok.mp h
    simp [hlegal, eq_comm]

theorem elaborate_eq_ok {ls : List Directive} {p : BlockProgram} :
    elaborate mode ls = .ok p ↔
      ∃ l rest d d', ls = l :: rest ∧ openDraft mode l = .ok d ∧
        Draft.lines mode d rest = .ok d' ∧ d'.close = .ok p := by
  cases ls with
  | nil => simp [elaborate]
  | cons l rest =>
    cases hopen : openDraft mode l with
    | error e => simp [elaborate, hopen]
    | ok d => cases hlines : Draft.lines mode d rest <;> simp [elaborate, hopen, hlines]

end

/-! ## Legal configurations written out -/

theorem Draft.lines_osc (mode : RoundMode) (d : Draft) (vs : List Voice) (ls : List Directive) :
    Draft.lines mode d ((vs.map fun v => .osc v.kind v.period) ++ ls) =
      Draft.lines mode
        { d with raw := d.raw.addVoices (vs.map Voice.toRaw) } ls := by
  induction vs generalizing d with
  | nil => simp
  | cons v vs ih =>
    have hline : d.line mode (.osc v.kind v.period) =
        .ok { d with raw := d.raw.addVoices [v.toRaw] } := rfl
    rw [List.map_cons, List.cons_append, Draft.lines, hline]
    simp only [ih, addVoices_addVoices]
    rfl

/-- The lines that write out a legal configuration (R101). -/
theorem elaborate_cfg_lines (mode : RoundMode) {c : Cfg} {pat : TxPattern} (T : Nat) (hc : c.wf = true)
    (hwrap : c.triPolicy = .wrap) (hpat : pat.star = true → pat.expand ≠ []) :
    elaborate mode (.cfg c.W c.P c.D :: (c.voices.map fun v => .osc v.kind v.period) ++
      [.txReady pat, .run T]) = .ok ⟨c, pat.expand, pat.rest, T⟩ := by
  have hstar : ¬ (pat.star && pat.expand.isEmpty) = true := by simpa using hpat
  refine elaborate_eq_ok.mpr ⟨_, _, _, { raw := c.toRaw, tx := some pat, run := some T },
    List.cons_append, rfl, ?_, ?_⟩
  · rw [Draft.lines_osc]
    simp [Draft.lines, Draft.line, hstar, RawCfg.addVoices, Cfg.toRaw, hwrap]
  · rw [Draft.close_eq_ok, toRaw_toCfg]
    exact ⟨toRaw_legal hc, rfl⟩

/-- Settles O57: an accepted text is read line by line into a draft that passes the checks. -/
theorem programsAreLegal : Obligations.ProgramsAreLegal := by
  refine ⟨fun mode ls p h => ?_, fun mode c pat T => elaborate_cfg_lines mode T⟩
  obtain ⟨l, rest, d, d', rfl, hopen, hlines, hclose⟩ := elaborate_eq_ok.mp h
  obtain ⟨W, P, D, rfl, hfirst⟩ := openDraft_eq_ok hopen
  obtain ⟨hnocfg, hraw, htx, hrun⟩ := Draft.lines_reads hlines
  obtain ⟨hlegal, rfl⟩ := Draft.close_eq_ok.mp hclose
  obtain ⟨hW, hP, hD, hvoices⟩ := toCfg_of_legal hlegal
  rw [hraw] at hW hP hD hvoices
  have hcfg : l.isCfg = true := by
    obtain rfl | ⟨clk, R, rfl, -⟩ := hfirst <;> rfl
  have hrest : ∀ l' : Directive, l'.isCfg = false → l' ∈ l :: rest → l' ∈ rest := by
    rintro l' hl' hmem
    refine List.mem_of_ne_of_mem ?_ hmem
    rintro rfl
    exact nomatch hcfg.symm.trans hl'
  refine ⟨toCfg_wf hlegal, by rw [hraw]; rfl, ⟨l, rest, rfl, ?_, ?_, ?_⟩, ?_, ?_, ?_⟩
  · obtain rfl | ⟨clk, R, rfl, rfl⟩ := hfirst
    · exact .inl ⟨W, P, D, rfl, by rw [hraw]; exact ⟨hW, hP, hD⟩⟩
    · exact .inr ⟨W, P, clk, R, rfl, by rw [hraw]; exact ⟨hW, hP, hD⟩⟩
  · exact fun W' P' D' hmem => nomatch hnocfg _ hmem
  · exact fun W' P' clk R hmem => nomatch hnocfg _ hmem
  · rw [hraw, hvoices, ← List.filterMap_cons_none (voice?_of_isCfg mode hcfg), RawCfg.addVoices,
      List.nil_append, List.map_filterMap]
    exact List.filterMap_congr fun l' _ => by cases l' <;> rfl
  · intro pat hmem
    simp [htx pat (.inr (hrest _ rfl hmem))]
  · intro T hmem
    simp [hrun T (.inr (hrest _ rfl hmem))]

end Sys2Proof.Machine
end
